-- ==== Sys2Proof/Word.lean ====
section
/-! DEFINITION. The word and byte types of the block.

An operation word is a 32-bit number (30_encoding.md R90), a key, an address and a command are bytes
(10_state.md R30, R33), a pulse duration is a 16-bit number of microseconds (10_state.md R32). -/

namespace Sys2Proof

/-- An operation word, and the 32-bit accumulator (30_encoding.md R90; 10_state.md R25). -/
abbrev Word := BitVec 32

/-- A key, a frame field, a duty operand, a channel index (30_encoding.md R93, R94, R104). -/
abbrev Byte := BitVec 8

/-- A timestamp: microseconds since the previous edge (10_state.md R32; 30_encoding.md R92). -/
abbrev Micros := BitVec 16

end Sys2Proof
end

