-- ==== Sys2Proof/Syntax.lean ====
section
/-! DEFINITION. The ten operations of the block, one constructor per row of spec/opcode_table.json
(30_encoding.md R90).

Operands are kept as the operation word carries them (R95); the widths of their types are the widths of
their fields (R92 to R94), so every term is encodable. -/

namespace Sys2Proof

/-- An operation (00_scope.md R16), the block's instruction. -/
inductive Instr where
  /-- `RISE ts`: a rising edge, `ts` microseconds after the falling edge before it (41_frame_assembler.md R136). -/
  | rise (ts : Micros)
  /-- `FALL ts`: a falling edge, `ts` microseconds after the rising edge before it (41_frame_assembler.md R139). -/
  | fall (ts : Micros)
  /-- `WTICK`: a watchdog tick (41_frame_assembler.md R151). -/
  | wtick
  /-- `PTICK`: a PWM tick (44_pwm_engine.md R216). -/
  | ptick
  /-- `KEYRD`: poll the current key (42_frame_validator.md R174). -/
  | keyrd
  /-- `DBSTEP k`: one debouncer step with the polled key `k`, 0 for none (43_key_debouncer.md R191). -/
  | dbstep (k : Byte)
  /-- `POLL`: `KEYRD` and then `DBSTEP` of its result (43_key_debouncer.md R205). -/
  | poll
  /-- `SETDUTY v`: set the duty level; `v` is a two's-complement byte (44_pwm_engine.md R220). -/
  | setduty (v : Byte)
  /-- `SETEN ch, en`: set one channel's enable flag (44_pwm_engine.md R224). -/
  | seten (ch : Byte) (en : Bool)
  /-- `RESET` (45_system.md R240). -/
  | reset
deriving DecidableEq, Repr

end Sys2Proof
end

