-- ==== Sys2Proof/Decode.lean ====
section
/-! DEFINITION. Decoding an operation word and encoding an operation (30_encoding.md R90 to R97).

Decoding follows R97: read the opcode, look up its row, check the fixed bits, extract the operands. It
is total, and rejects a reserved word by name (R96). Every row's fixed bits are written as its
`match` and `mask` of R90. -/

namespace Sys2Proof

/-- Why a word is reserved (30_encoding.md R96). -/
inductive DecodeError where
  /-- Opcode 0x0 or 0xB to 0xF. -/
  | reservedOpcode
  /-- An assigned opcode with a non-zero bit in a must-be-zero field. -/
  | mustBeZero
deriving DecidableEq, Repr

/-- A row of the opcode map of 30_encoding.md R90. -/
inductive OpRow where
  | rise | fall | wtick | ptick | keyrd | dbstep | poll | setduty | seten | reset
deriving DecidableEq, Repr

/-- The rows in the order of the table of R90. -/
def opRows : List OpRow :=
  [.rise, .fall, .wtick, .ptick, .keyrd, .dbstep, .poll, .setduty, .seten, .reset]

/-- The `match` column of R90. -/
def OpRow.matchBits : OpRow → Word
  | .rise => 0x10000000
  | .fall => 0x20000000
  | .wtick => 0x30000000
  | .ptick => 0x40000000
  | .keyrd => 0x50000000
  | .dbstep => 0x60000000
  | .poll => 0x70000000
  | .setduty => 0x80000000
  | .seten => 0x90000000
  | .reset => 0xA0000000

/-- The `mask` column of R90, by format: Z (R91), T (R92), K (R93), C (R94). -/
def OpRow.mask : OpRow → Word
  | .rise | .fall => 0xFFFF0000
  | .wtick | .ptick | .keyrd | .poll | .reset => 0xFFFFFFFF
  | .dbstep | .setduty => 0xFFFFFF00
  | .seten => 0xFFFF00FE

/-- The opcode field, `w[31:28]` (R90). -/
def opcodeField (w : Word) : BitVec 4 := w.extractLsb' 28 4

/-- The timestamp field of format T, `w[15:0]` (R92). -/
def tsField (w : Word) : Micros := w.extractLsb' 0 16

/-- The byte operand of format K, `w[7:0]` (R93). -/
def byteField (w : Word) : Byte := w.extractLsb' 0 8

/-- The channel index of format C, `w[15:8]` (R94). -/
def channelField (w : Word) : Byte := w.extractLsb' 8 8

/-- The enable flag of format C, `w[0]` (R94). -/
def enableField (w : Word) : Bool := w.getLsbD 0

/-- The complete opcode map of R90; the opcodes left out are reserved. -/
def rowOfOpcode (op : BitVec 4) : Option OpRow :=
  match op.toNat with
  | 0x1 => some .rise
  | 0x2 => some .fall
  | 0x3 => some .wtick
  | 0x4 => some .ptick
  | 0x5 => some .keyrd
  | 0x6 => some .dbstep
  | 0x7 => some .poll
  | 0x8 => some .setduty
  | 0x9 => some .seten
  | 0xA => some .reset
  | _ => none

/-- The operation a row's word stands for, its operands extracted by R95. -/
def OpRow.assemble (w : Word) : OpRow → Instr
  | .rise => .rise (tsField w)
  | .fall => .fall (tsField w)
  | .wtick => .wtick
  | .ptick => .ptick
  | .keyrd => .keyrd
  | .dbstep => .dbstep (byteField w)
  | .poll => .poll
  | .setduty => .setduty (byteField w)
  | .seten => .seten (channelField w) (enableField w)
  | .reset => .reset

/-- The decoder (30_encoding.md R97). -/
def decode (w : Word) : Except DecodeError Instr :=
  match rowOfOpcode (opcodeField w) with
  | none => .error .reservedOpcode
  | some r => if w &&& r.mask = r.matchBits then .ok (r.assemble w) else .error .mustBeZero

/-- The row of an operation. -/
def Instr.row : Instr → OpRow
  | .rise _ => .rise
  | .fall _ => .fall
  | .wtick => .wtick
  | .ptick => .ptick
  | .keyrd => .keyrd
  | .dbstep _ => .dbstep
  | .poll => .poll
  | .setduty _ => .setduty
  | .seten _ _ => .seten
  | .reset => .reset

/-- The operand bits of an operation, in their places (30_encoding.md R91 to R94). -/
def operandBits : Instr → Word
  | .rise ts | .fall ts => ts.setWidth 32
  | .dbstep k => k.setWidth 32
  | .setduty v => v.setWidth 32
  | .seten ch en => (ch.setWidth 32 <<< 8) ||| (BitVec.ofBool en).setWidth 32
  | .wtick | .ptick | .keyrd | .poll | .reset => 0

/-- The operation word of an operation (30_encoding.md R90). -/
def encode (i : Instr) : Word := i.row.matchBits ||| operandBits i

/-- The word whose `nbits` low bits are those of `w` and whose other bits are 0. -/
def tableWord (nbits w : Nat) : Word := BitVec.ofNat 32 (w % 2 ^ nbits)

/-- The instruction the decoder reads from a word numbered as spec/opcode_table.json numbers it. An
operation word is one 32-bit number, not a byte string (20_memory.md R69), so there is no byte order
to lay out; a row longer than a word has no instruction. -/
def decodeTableWord (nbits w : Nat) : Option Instr :=
  if w % 2 ^ nbits < 2 ^ 32 then (decode (tableWord nbits w)).toOption else none

end Sys2Proof
end

