-- ==== Sys2Proof/Config.lean ====
section
/-! DEFINITION. The static parameters of the block (00_scope.md R9; 10_state.md R40).

They are fixed before reset is released and no operation writes them. A model takes them "as arguments of
the step function, constant over a run" (R40); the step takes one state, so State carries a `Config`
in its field `cfg` (notes/assumptions/3.md). Two of R9's parameters, `POLL_PERIOD` and
`TICK_RATE`, are timing that no rule reads and are left out (notes/assumptions/14.md).

Values that are loaded into a register or compared with one have the register's width, so no load
loses a bit. The legality of a configuration is checked in WellFormed.lean. -/

namespace Sys2Proof

/-- The two limits of one duration band, in microseconds (00_scope.md R9, 40_edge_classifier.md R121). -/
structure Band where
  lo : Micros
  hi : Micros
deriving DecidableEq, Repr

/-- The parameters of 00_scope.md R9 that some rule reads. -/
structure Config where
  /-- `LEADER_LO`, `LEADER_HI`. -/
  leaderBand : Band
  /-- `BIT0_LO`, `BIT0_HI`. -/
  bit0Band : Band
  /-- `BIT1_LO`, `BIT1_HI`. -/
  bit1Band : Band
  /-- `REPEAT_LO`, `REPEAT_HI`. -/
  repeatBand : Band
  /-- `BAND_CLOSED`: the end-points belong to the band (D1). -/
  bandClosed : Bool
  /-- `TS_WIDTH`: bits of a timestamp; it bounds what the environment sends and `LEADER_HI` (D2). -/
  tsWidth : Nat
  /-- `WDT_CEILING`, in watchdog ticks, 1..15. -/
  wdtCeiling : BitVec 4
  /-- `DEVICE_ID` (D29). -/
  deviceId : Byte
  /-- `DEBOUNCE_WINDOW`, in polls, 0..10 (D15). -/
  debounceWindow : BitVec 4
  /-- `HOLD_THRESHOLD`, in polls, 1..255 (D15). -/
  holdThreshold : Byte
  /-- `REPEAT_RELOAD`, below the hold threshold (D15). -/
  repeatReload : Byte
  /-- `WHITELIST`: the keys that auto-repeat, a set of non-zero bytes (D21, OPEN). -/
  whitelist : List Byte
  /-- `N_CHANNELS`, 1..256 (D23). -/
  nChannels : Nat
  /-- `REPEAT_CNT_WIDTH`: bits of the decoder's repeat counter, at least 1 (D9). -/
  repeatCntWidth : Nat
deriving DecidableEq, Repr

/-- The defaults of 00_scope.md R9. `WHITELIST` is OPEN and has no default there: "the empty set is
legal", and it is what this configuration takes. DESIGN CHOICE, unsafe for a claim that rests on this
one configuration (notes/assumptions/4.md). -/
def Config.default : Config where
  leaderBand := { lo := 4200, hi := 4700 }
  bit0Band := { lo := 300, hi := 800 }
  bit1Band := { lo := 1400, hi := 1800 }
  repeatBand := { lo := 2200, hi := 2600 }
  bandClosed := true
  tsWidth := 16
  wdtCeiling := 14
  deviceId := 0x00
  debounceWindow := 10
  holdThreshold := 25
  repeatReload := 20
  whitelist := []
  nChannels := 8
  repeatCntWidth := 8

/-- `FRAME_BITS`, fixed (00_scope.md R9). -/
def frameBits : Nat := 32

/-- `PWM_STEPS`, fixed (00_scope.md R9). -/
def pwmSteps : Nat := 10

end Sys2Proof
end

