-- ==== Sys2Proof/Machine/Types.lean ====
section
/-! DEFINITION. The enumerations and values the rules name (00_scope.md R14; 10_state.md R30, R31;
30_encoding.md R100 to R103). Codes that are never produced have no constructor (93_implementation_defined.md
U21). -/

namespace Sys2Proof.Machine

/-- `Class`: what a high pulse is classified as (00_scope.md R14; 40_edge_classifier.md R120). -/
inductive PulseClass where
  | leader
  | bitZero
  | bitOne
  | repeatCode
  | invalid
deriving DecidableEq, Repr

/-- `Phase` (10_state.md R23). -/
inductive Phase where
  /-- `IDLE`: no leader since the last decoder reset. -/
  | idle
  /-- `LEADER_SEEN`: a leader and no data bit yet. -/
  | leaderSeen
  /-- `RECEIVING`: at least one data bit accepted. -/
  | receiving
deriving DecidableEq, Repr

/-- `Edge` (00_scope.md R14). -/
inductive Edge where
  | rising
  | falling
deriving DecidableEq, Repr

/-- What the capture unit reports: "Produced by hardware, consumed once, not retained" (10_state.md R32). -/
structure CaptureEvent where
  edge : Edge
  timestamp : Micros
deriving DecidableEq, Repr

/-- `EventKind` (00_scope.md R14; 43_key_debouncer.md R193). -/
inductive EventKind where
  /-- `PRESS`, the source's "dispatch event". -/
  | press
  /-- `REPEAT_EV`, the source's "repeat dispatch event". -/
  | repeatEv
deriving DecidableEq, Repr

/-- What the dispatch port carries when `ev_valid` is 1 (20_memory.md R68). -/
structure Event where
  kind : EventKind
  key : Byte
deriving DecidableEq, Repr

/-- What the result port carries (20_memory.md R67; 30_encoding.md R103). Only `KEY` comes with data: the
spec states no `res_data` for the other two (notes/assumptions/9.md). -/
inductive Result where
  /-- `NONE`. -/
  | none
  /-- `KEY` with the key byte, 0 for "no key". -/
  | key (code : Byte)
  /-- `TIMED_OUT`. -/
  | timedOut
deriving DecidableEq, Repr

/-- The levels of the operation port in one step: `op_valid` and `op_word[31:0]` (20_memory.md R63). -/
structure OpPort where
  opValid : Bool
  opWord : Word
deriving DecidableEq, Repr

/-- The four bytes of a frame (10_state.md R30). -/
structure Frame where
  address : Byte
  addressInverse : Byte
  command : Byte
  commandInverse : Byte
deriving DecidableEq, Repr

/-- What the validator answers (10_state.md R31). -/
structure DecodedKey where
  code : Byte
  valid : Bool
deriving DecidableEq, Repr

/-- The five error conditions (60_exceptions.md R250), labelled E0 to E4 (R257). They are documentation:
no port carries them and no rule reads them. -/
inductive ErrorLabel where
  /-- E0 (R251). -/
  | noSignal
  /-- E1 (R252). -/
  | spuriousPulse
  /-- E2 (R253). -/
  | frameTimeout
  /-- E3 (R254). -/
  | checksumOrAddressMismatch
  /-- E4 (R255). -/
  | repeatWithoutActiveFrame
deriving DecidableEq, Repr

end Sys2Proof.Machine
end

