-- ==== Sys2Proof/WellFormed.lean ====
section
/-! DEFINITION. The checks a configuration must pass (00_scope.md R9, R10; 40_edge_classifier.md R125):
"a model must refuse the configuration" otherwise.

Instructions need no check: the operand types of Syntax.lean are exactly the ranges the encoding
admits (30_encoding.md R92 to R94), so every term of Instr is well-formed. -/

namespace Sys2Proof

/-- What is wrong with a configuration; each names the line of 00_scope.md R9 or R10 it breaks. -/
inductive ConfigError where
  /-- Some band has `LO > HI` (R9). -/
  | bandLimitsReversed
  /-- Two duration bands share a duration (R10). -/
  | bandsOverlap
  /-- `TS_WIDTH` is below 13 or cannot hold `LEADER_HI + 1` (R9). -/
  | timestampTooNarrow
  /-- `WDT_CEILING` is 0 (R9: 1..15). -/
  | watchdogCeilingZero
  /-- `DEBOUNCE_WINDOW > 10` (R9, R10). -/
  | debounceWindowTooLong
  /-- `HOLD_THRESHOLD` is 0 (R9: 1..255). -/
  | holdThresholdZero
  /-- `REPEAT_RELOAD >= HOLD_THRESHOLD` (R9, R10). -/
  | reloadNotBelowThreshold
  /-- The key 0 is in `WHITELIST` (R9, R10). -/
  | zeroKeyWhitelisted
  /-- `N_CHANNELS` is outside 1..256 (R9). -/
  | channelCountOutOfRange
  /-- `REPEAT_CNT_WIDTH` is 0 (R9). -/
  | repeatCounterWidthZero
deriving DecidableEq, Repr

/-- How far inside its limits a band begins: 0 when the end-points belong to it, 1 when they do not (D1). -/
def Config.bandMargin (c : Config) : Nat := if c.bandClosed then 0 else 1

/-- The four bands. -/
def Config.bands (c : Config) : List Band := [c.leaderBand, c.bit0Band, c.bit1Band, c.repeatBand]

/-- No duration is in both bands, read as the sets of durations they hold under `BAND_CLOSED`
(R10; DEDUCED, notes/assumptions/6.md). -/
def Config.apart (c : Config) (a b : Band) : Bool :=
  decide (min a.hi.toNat b.hi.toNat < max a.lo.toNat b.lo.toNat + 2 * c.bandMargin)

/-- The first check of 00_scope.md R9 and R10 that the configuration fails, if any. -/
def Config.check (c : Config) : Option ConfigError :=
  if !(c.bands.all fun b => decide (b.lo.toNat ≤ b.hi.toNat)) then some .bandLimitsReversed
  else if !(decide (c.bands.Pairwise fun a b => c.apart a b = true)) then some .bandsOverlap
  else if c.tsWidth < 13 || 2 ^ c.tsWidth ≤ c.leaderBand.hi.toNat + 1 then some .timestampTooNarrow
  else if c.wdtCeiling.toNat = 0 then some .watchdogCeilingZero
  else if 10 < c.debounceWindow.toNat then some .debounceWindowTooLong
  else if c.holdThreshold.toNat = 0 then some .holdThresholdZero
  else if c.holdThreshold.toNat ≤ c.repeatReload.toNat then some .reloadNotBelowThreshold
  else if c.whitelist.contains 0 then some .zeroKeyWhitelisted
  else if c.nChannels = 0 || 256 < c.nChannels then some .channelCountOutOfRange
  else if c.repeatCntWidth = 0 then some .repeatCounterWidthZero
  else none

/-- A configuration to which the rules of the spec apply. -/
def Config.legal (c : Config) : Bool := c.check.isNone

end Sys2Proof
end

