-- ==== Sys2Proof/Machine/State.lean ====
section
/-! DEFINITION. The state of the block as plain data (10_state.md R20), the outcomes of a step, and reset.

The fourteen registers are grouped as the spec groups them: FrameAssembler (R23 to R29), KeyDebouncer
(R33 to R35), SoftwarePwmEngine (R36 to R39). Beside them State carries the static configuration, the levels
of the operation port in the coming steps, and the levels of the result and dispatch ports: none of these
is a register of the spec (notes/assumptions/1.md, 2.md, 3.md). -/

namespace Sys2Proof.Machine

/-- The decoder's registers, owned by the FrameAssembler (10_state.md R23 to R29). -/
structure DecoderState where
  /-- R23. -/
  phase : Phase
  /-- R24, 6 bits, 0..32: data bits shifted in since the last leader. -/
  bitCount : BitVec 6
  /-- R25, 32 bits. -/
  accumulator : Word
  /-- R26, 4 bits. -/
  watchdogTicks : BitVec 4
  /-- R27. -/
  pulseInProgress : Bool
  /-- R28. -/
  frameReady : Bool
  /-- R29, 8 bits, saturating. -/
  repeatCounter : BitVec 8
deriving DecidableEq, Repr

/-- The debouncer's registers (10_state.md R33 to R35). -/
structure DebounceState where
  /-- R33, 0 for none. -/
  lastKey : Byte
  /-- R34, 8 bits, saturating. -/
  repeatCount : BitVec 8
  /-- R35, 4 bits, 0..10. -/
  debounceTimer : BitVec 4
deriving DecidableEq, Repr

/-- The PWM engine's registers (10_state.md R36 to R39). The two flag banks have one entry a channel,
channel 0 first. -/
structure PwmState where
  /-- R36, 4 bits, 0..9. -/
  counter : BitVec 4
  /-- R37, 4 bits, 0..10. -/
  dutyLevel : BitVec 4
  /-- R38. -/
  enabled : List Bool
  /-- R39, the output register; a pin is its complement. -/
  active : List Bool
deriving DecidableEq, Repr

/-- The whole machine. -/
structure State where
  /-- The static configuration (10_state.md R40): no operation writes it. -/
  cfg : Config
  /-- FrameAssembler registers. -/
  decoder : DecoderState
  /-- KeyDebouncer registers. -/
  debouncer : DebounceState
  /-- SoftwarePwmEngine registers. -/
  pwm : PwmState
  /-- The operation port in the coming steps, the next step first; past the end, `op_valid` is 0
  (20_memory.md R63, R72; the model's own field, notes/assumptions/1.md). -/
  opPort : List OpPort
  /-- The result port, valid for the operation just performed (20_memory.md R67). -/
  result : Result
  /-- The dispatch port, valid for the operation just performed (20_memory.md R68). -/
  event : Option Event
deriving DecidableEq, Repr

/-- Why the machine stops with a fault: it never does. "Nothing in the block is treated as fault"
(93_implementation_defined.md section 2; 60_exceptions.md R250, R256). No constructor, so no meaning can
raise one: safe. -/
inductive Fault where
deriving DecidableEq, Repr

/-- Why a step is refused. -/
inductive Refusal where
  /-- An operation that has no meaning yet, raised by exec's arms; safe. None is left. -/
  | notModelled (mnemonic : String)
  /-- Raised by step: the presented word has a reserved opcode (30_encoding.md R96). Safe: no claim can
  rest on a reserved word. -/
  | reservedOpcode (w : Word)
  /-- Raised by step: the presented word has an assigned opcode and a non-zero must-be-zero bit
  (30_encoding.md R96). Safe. -/
  | mustBeZero (w : Word)
  /-- Raised by step: the configuration breaks 00_scope.md R9 or R10, and "a model must refuse the
  configuration". Safe. -/
  | illegalConfiguration (e : ConfigError)
deriving DecidableEq, Repr

/-- What an operation answers. -/
abbrev Answer := Host.Outcome State Fault Refusal

/-- The reset values of the decoder (10_state.md section 7; 70_reset_and_hazards.md R280). -/
def DecoderState.reset : DecoderState where
  phase := .idle
  bitCount := 0
  accumulator := 0
  watchdogTicks := 0
  pulseInProgress := false
  frameReady := false
  repeatCounter := 0

/-- The reset values of the debouncer (10_state.md section 7). -/
def DebounceState.reset : DebounceState where
  lastKey := 0
  repeatCount := 0
  debounceTimer := 0

/-- The reset values of a PWM engine with `n` channels (10_state.md section 7). -/
def PwmState.reset (n : Nat) : PwmState where
  counter := 0
  dutyLevel := 0
  enabled := List.replicate n false
  active := List.replicate n false

/-- The block booted with the parameters `c`, the environment being about to drive `ops` on the operation
port (70_reset_and_hazards.md R284, steps 1 and 2). No result and no event (R282). -/
def State.boot (c : Config) (ops : List OpPort) : State where
  cfg := c
  decoder := DecoderState.reset
  debouncer := DebounceState.reset
  pwm := PwmState.reset c.nChannels
  opPort := ops
  result := .none
  event := none

/-- The machine right after reset, with the default parameters and nothing presented. -/
def State.reset : State := State.boot Config.default []

end Sys2Proof.Machine
end

