-- ==== Sys2Proof/Machine/Operands.lean ====
section
/-! DEFINITION. The operand forms (30_encoding.md R95): how an operation reads its operand fields. -/

namespace Sys2Proof.Machine

/-- A timestamp as a number of microseconds, never scaled (30_encoding.md R95). -/
def microseconds (ts : Micros) : Nat := ts.toNat

/-- The duty operand as a mathematical integer, -128..127 (30_encoding.md R93, R95). -/
def dutyInteger (v : Byte) : Int := v.toInt

/-- The channel index of `SETEN`, 0..255 (30_encoding.md R94). -/
def channelIndex (ch : Byte) : Nat := ch.toNat

/-- `clamp_duty(x)` (44_pwm_engine.md R221). -/
def clampDuty (x : Int) : BitVec 4 :=
  if x < 0 then 0 else if 10 < x then 10 else BitVec.ofInt 4 x

end Sys2Proof.Machine
end

