-- ==== Sys2Proof/Machine/Flags.lean ====
section
/-! DEFINITION. The one-bit conditions the rules test. The block has no condition-code register: these are
the tests that select among the cases of `FALL`, `WTICK`, `KEYRD`, `DBSTEP` and `PTICK`. -/

namespace Sys2Proof.Machine

/-- A duration is in a band (40_edge_classifier.md R121; end-points by `BAND_CLOSED`, R124). -/
def inBand (c : Config) (b : Band) (d : Micros) : Bool :=
  if c.bandClosed then
    decide (b.lo.toNat ≤ microseconds d) && decide (microseconds d ≤ b.hi.toNat)
  else
    decide (b.lo.toNat < microseconds d) && decide (microseconds d < b.hi.toNat)

/-- All 32 bits are in (41_frame_assembler.md R139, R151). -/
def frameFull (d : DecoderState) : Bool := decide (d.bitCount.toNat = frameBits)

/-- A data bit is accepted: a leader has been seen and fewer than 32 bits are in (41_frame_assembler.md R139). -/
def acceptsBit (d : DecoderState) : Bool :=
  decide (d.phase ≠ .idle) && decide (d.bitCount.toNat < frameBits)

/-- One more watchdog tick reaches the ceiling (41_frame_assembler.md R156). -/
def ceilingReached (c : Config) (d : DecoderState) : Bool :=
  decide (c.wdtCeiling.toNat ≤ d.watchdogTicks.toNat + 1)

/-- Expiry (42_frame_validator.md R177). -/
def expired (c : Config) (d : DecoderState) : Bool :=
  decide (c.wdtCeiling.toNat ≤ d.watchdogTicks.toNat)

/-- The key is one of the continuous-adjust keys (43_key_debouncer.md R198). -/
def whitelisted (c : Config) (k : Byte) : Bool := c.whitelist.contains k

/-- The incremented hold count of a whitelisted key reaches the threshold (43_key_debouncer.md R198). -/
def repeatFires (c : Config) (k : Byte) (n : BitVec 8) : Bool :=
  whitelisted c k && decide (c.holdThreshold.toNat ≤ n.toNat)

/-- One channel's output for this tick (44_pwm_engine.md R216, step 2). -/
def channelOn (enabled : Bool) (counter duty : BitVec 4) : Bool :=
  enabled && decide (counter.toNat < duty.toNat)

end Sys2Proof.Machine
end

