-- ==== Sys2Proof/Machine/EdgeClassifier.lean ====
section
/-! DEFINITION. EdgeTimingDecoder: the pure classifier of high pulses (40_edge_classifier.md). -/

namespace Sys2Proof.Machine

/-- `CLASSIFY(d)` (40_edge_classifier.md R121). The bands of a legal configuration are disjoint, so the
order of the tests does not matter there. -/
def classify (c : Config) (d : Micros) : PulseClass :=
  if inBand c c.leaderBand d then .leader
  else if inBand c c.bit0Band d then .bitZero
  else if inBand c c.bit1Band d then .bitOne
  else if inBand c c.repeatBand d then .repeatCode
  else .invalid

end Sys2Proof.Machine
end

