-- ==== Sys2Proof/Machine/Ops.lean ====
section
/-! DEFINITION. The operations the meanings share: answering, saturating counts, the decoder reset, and
taking the next word from the operation port.

The block has no memory (20_memory.md R60) and takes no exception: no error condition "raises an exception,
vectors anywhere, saves any state, changes any mode or mask" (60_exceptions.md R256), so there is no entry to
share and no return from one. -/

namespace Sys2Proof.Machine

/-- End an operation: the state it leaves, with its result on the result port and its event, if any, on the
dispatch port (00_scope.md R12; 20_memory.md R67, R68). -/
def answer (r : Result) (e : Option Event) (s : State) : Answer :=
  .next { s with result := r, event := e }

/-- `min(x + 1, ceiling)` on natural numbers: a counter that saturates (41_frame_assembler.md R146, R153;
43_key_debouncer.md R192). -/
def saturatingInc {n : Nat} (x ceiling : BitVec n) : BitVec n :=
  BitVec.ofNat n (min (x.toNat + 1) ceiling.toNat)

/-- A down-counter that stops at 0 (43_key_debouncer.md R196, R199). -/
def stoppingDec {n : Nat} (x : BitVec n) : BitVec n :=
  if x = 0 then x else x - 1

/-- Where the decoder's repeat counter saturates: 255 (41_frame_assembler.md R146), and the largest value of
`REPEAT_CNT_WIDTH` bits where that is less (notes/assumptions/8.md). -/
def repeatCeiling (c : Config) : BitVec 8 :=
  if 8 ≤ c.repeatCntWidth then 255 else BitVec.ofNat 8 (2 ^ c.repeatCntWidth - 1)

/-- `decoder_reset()` (41_frame_assembler.md R160). `pulseInProgress` is not in its list. -/
def decoderReset (d : DecoderState) : DecoderState :=
  { d with
    phase := .idle
    bitCount := 0
    accumulator := 0
    watchdogTicks := 0
    frameReady := false
    repeatCounter := 0 }

/-- The word the environment presents in this step: none where `op_valid` is 0 (20_memory.md R63). -/
def presented (s : State) : Option Word :=
  match s.opPort with
  | [] => none
  | p :: _ => if p.opValid then some p.opWord else none

/-- The state once this step's levels of the operation port have been taken. -/
def taken (s : State) : State := { s with opPort := s.opPort.tail }

/-- A step in which nothing is presented: no register changes, and the two ports that are valid only "for the
operation just performed" carry nothing (20_memory.md R63, R67, R68; DEDUCED, notes/assumptions/2.md). -/
def idleStep (s : State) : Answer := answer .none none (taken s)

/-- The refusal of a reserved word (30_encoding.md R96). -/
def refuseReserved (w : Word) : DecodeError → Answer
  | .reservedOpcode => .refused (.reservedOpcode w)
  | .mustBeZero => .refused (.mustBeZero w)

/-- The state with the word `w` on the operation port in the next step, in place of what was to be there. -/
def presentNext (w : Word) (s : State) : State :=
  { s with opPort := { opValid := true, opWord := w } :: s.opPort.tail }

end Sys2Proof.Machine
end

