-- ==== Sys2Proof/Machine/FrameAssembler.lean ====
section
/-! DEFINITION. FrameAssembler: `RISE`, `FALL`, `WTICK` (41_frame_assembler.md). -/

namespace Sys2Proof.Machine

/-- A rising edge (41_frame_assembler.md R137): the block's share is the flag alone. -/
def risingEdge (d : DecoderState) : DecoderState := { d with pulseInProgress := true }

/-- `accept_leader` (41_frame_assembler.md R142). `accumulator` is not cleared. -/
def acceptLeader (d : DecoderState) : DecoderState :=
  { d with
    phase := .leaderSeen
    bitCount := 0
    repeatCounter := 0
    watchdogTicks := 0
    frameReady := false }

/-- `accept_bit` (41_frame_assembler.md R144). The shift discards the old bit 31. -/
def acceptBit (b : Bool) (d : DecoderState) : DecoderState :=
  { d with
    accumulator := (d.accumulator <<< 1) ||| (BitVec.ofBool b).setWidth 32
    bitCount := d.bitCount + 1
    phase := .receiving
    frameReady := d.frameReady || decide (d.bitCount.toNat + 1 = frameBits) }

/-- `accept_repeat` (41_frame_assembler.md R146). -/
def acceptRepeat (c : Config) (d : DecoderState) : DecoderState :=
  { d with
    repeatCounter := saturatingInc d.repeatCounter (repeatCeiling c)
    watchdogTicks := 0 }

/-- What a classified pulse does to the decoder (41_frame_assembler.md R139, R142 to R148; table R150). -/
def assemblePulse (c : Config) (p : PulseClass) (d : DecoderState) : DecoderState :=
  match p with
  | .leader => if d.phase = .idle then acceptLeader d else d
  | .bitZero => if acceptsBit d then acceptBit false d else d
  | .bitOne => if acceptsBit d then acceptBit true d else d
  | .repeatCode => if d.phase = .receiving then acceptRepeat c d else d
  | .invalid => d

/-- A falling edge (41_frame_assembler.md R139): dropped without a pulse in progress (R140), otherwise
classified and assembled, the flag cleared afterwards (R149). -/
def fallingEdge (c : Config) (ts : Micros) (d : DecoderState) : DecoderState :=
  if d.pulseInProgress then { assemblePulse c (classify c ts) d with pulseInProgress := false } else d

/-- The tick of a tracked frame (41_frame_assembler.md R153): it saturates and never resets. -/
def tickTracked (c : Config) (d : DecoderState) : DecoderState :=
  { d with frameReady := true, watchdogTicks := saturatingInc d.watchdogTicks c.wdtCeiling }

/-- The tick of a partial frame below the ceiling (41_frame_assembler.md R155). -/
def tickPartial (d : DecoderState) : DecoderState :=
  { d with watchdogTicks := d.watchdogTicks + 1 }

/-- A watchdog tick (41_frame_assembler.md R151): the decoder after it and the operation's result. -/
def watchdogTick (c : Config) (d : DecoderState) : DecoderState × Result :=
  if d.phase = .idle then (d, .none)
  else if frameFull d then (tickTracked c d, .none)
  else if ceilingReached c d then (decoderReset d, .timedOut)
  else (tickPartial d, .none)

/-- `RISE ts` (41_frame_assembler.md R137). `ts` is ignored. -/
def execRise (_ts : Micros) (s : State) : Answer :=
  answer .none none { s with decoder := risingEdge s.decoder }

/-- `FALL ts` (41_frame_assembler.md R139). -/
def execFall (ts : Micros) (s : State) : Answer :=
  answer .none none { s with decoder := fallingEdge s.cfg ts s.decoder }

/-- `WTICK` (41_frame_assembler.md R151). -/
def execWtick (s : State) : Answer :=
  answer (watchdogTick s.cfg s.decoder).2 none { s with decoder := (watchdogTick s.cfg s.decoder).1 }

end Sys2Proof.Machine
end

