-- ==== Sys2Proof/Machine/FrameValidator.lean ====
section
/-! DEFINITION. FrameValidator: `VALIDATE` and `KEYRD` (42_frame_validator.md). -/

namespace Sys2Proof.Machine

/-- The view of the accumulator as a frame, high byte first (10_state.md R30; 30_encoding.md R104). -/
def frameView (w : Word) : Frame where
  address := w.extractLsb' 24 8
  addressInverse := w.extractLsb' 16 8
  command := w.extractLsb' 8 8
  commandInverse := w.extractLsb' 0 8

/-- A frame whose two complement tests pass (10_state.md R30). -/
def wellFormedFrame (f : Frame) : Bool :=
  decide (f.address = ~~~f.addressInverse) && decide (f.command = ~~~f.commandInverse)

/-- The three tests of `VALIDATE` (42_frame_validator.md R172). -/
def validFrame (f : Frame) (id : Byte) : Bool :=
  decide (f.address = ~~~f.addressInverse) && decide (f.address = id) && decide (f.command = ~~~f.commandInverse)

/-- `VALIDATE(frame, id)` (42_frame_validator.md R172). -/
def validate (frame : Word) (id : Byte) : DecodedKey where
  code := if validFrame (frameView frame) id then (frameView frame).command else 0
  valid := validFrame (frameView frame) id

/-- Poll the current key (42_frame_validator.md R174): the key returned and the decoder afterwards. -/
def readKey (c : Config) (d : DecoderState) : Byte × DecoderState :=
  if !d.frameReady then (0, d)
  else if !(validate d.accumulator c.deviceId).valid then (0, decoderReset d)
  else if expired c d then ((validate d.accumulator c.deviceId).code, decoderReset d)
  else ((validate d.accumulator c.deviceId).code, d)

/-- `KEYRD` (42_frame_validator.md R174). -/
def execKeyrd (s : State) : Answer :=
  answer (.key (readKey s.cfg s.decoder).1) none { s with decoder := (readKey s.cfg s.decoder).2 }

end Sys2Proof.Machine
end

