-- ==== Sys2Proof/Machine/KeyDebouncer.lean ====
section
/-! DEFINITION. KeyDebouncer: `DBSTEP` and `POLL` (43_key_debouncer.md). -/

namespace Sys2Proof.Machine

/-- Case NEW (43_key_debouncer.md R195): press, change or release. -/
def newKey (c : Config) (k : Byte) : DebounceState where
  lastKey := k
  repeatCount := 0
  debounceTimer := c.debounceWindow

/-- The event of case NEW: a press, and nothing for a release (43_key_debouncer.md R193, R195). -/
def pressEvent (k : Byte) : Option Event := if k = 0 then none else some { kind := .press, key := k }

/-- Cases SETTLE and IDLE: the timer runs down and stops at 0 (43_key_debouncer.md R196, R199). -/
def settle (b : DebounceState) : DebounceState := { b with debounceTimer := stoppingDec b.debounceTimer }

/-- Case HOLD (43_key_debouncer.md R197, R198, R200). -/
def hold (c : Config) (k : Byte) (b : DebounceState) : DebounceState × Option Event :=
  if repeatFires c k (saturatingInc b.repeatCount 255) then
    ({ b with repeatCount := c.repeatReload }, some { kind := .repeatEv, key := k })
  else ({ b with repeatCount := saturatingInc b.repeatCount 255 }, none)

/-- One debouncer step with the polled key `k` (43_key_debouncer.md R192): the registers after it and the event
it emits. -/
def debounce (c : Config) (k : Byte) (b : DebounceState) : DebounceState × Option Event :=
  if k ≠ b.lastKey then (newKey c k, pressEvent k)
  else if k ≠ 0 then
    if 0 < b.debounceTimer.toNat then (settle b, none) else hold c k b
  else (settle b, none)

/-- `DBSTEP k` (43_key_debouncer.md R192). -/
def execDbstep (k : Byte) (s : State) : Answer :=
  answer .none (debounce s.cfg k s.debouncer).2 { s with debouncer := (debounce s.cfg k s.debouncer).1 }

/-- `POLL` (43_key_debouncer.md R205): `KEYRD`, then `DBSTEP` of the key it returned, in one step. -/
def execPoll (s : State) : Answer :=
  let read := readKey s.cfg s.decoder
  let stepped := debounce s.cfg read.1 s.debouncer
  answer (.key read.1) stepped.2 { s with decoder := read.2, debouncer := stepped.1 }

end Sys2Proof.Machine
end

