-- ==== Sys2Proof/Machine/PwmEngine.lean ====
section
/-! DEFINITION. SoftwarePwmEngine: `PTICK`, `SETDUTY`, `SETEN` (44_pwm_engine.md). -/

namespace Sys2Proof.Machine

/-- The flag `enabled[i]`; false where there is no such channel. -/
def enabledAt (p : PwmState) (i : Nat) : Bool := p.enabled.getD i false

/-- The flag `active[i]`; false where there is no such channel. -/
def activeAt (p : PwmState) (i : Nat) : Bool := p.active.getD i false

/-- Step 1 of `PTICK` (44_pwm_engine.md R216). -/
def advanceCounter (n : BitVec 4) : BitVec 4 := BitVec.ofNat 4 ((n.toNat + 1) % pwmSteps)

/-- A PWM tick (44_pwm_engine.md R216): the compare of step 2 uses the advanced counter. -/
def pwmTick (c : Config) (p : PwmState) : PwmState :=
  { p with
    counter := advanceCounter p.counter
    active := (List.range c.nChannels).map fun i =>
      channelOn (enabledAt p i) (advanceCounter p.counter) p.dutyLevel }

/-- Set one channel's enable flag; a channel that does not exist is ignored (44_pwm_engine.md R224, R225). -/
def setChannel (c : Config) (ch : Byte) (en : Bool) (p : PwmState) : PwmState :=
  if channelIndex ch < c.nChannels then { p with enabled := p.enabled.set (channelIndex ch) en } else p

/-- `PTICK` (44_pwm_engine.md R216). -/
def execPtick (s : State) : Answer := answer .none none { s with pwm := pwmTick s.cfg s.pwm }

/-- `SETDUTY v` (44_pwm_engine.md R220). -/
def execSetduty (v : Byte) (s : State) : Answer :=
  answer .none none { s with pwm := { s.pwm with dutyLevel := clampDuty (dutyInteger v) } }

/-- `SETEN ch, en` (44_pwm_engine.md R224). -/
def execSeten (ch : Byte) (en : Bool) (s : State) : Answer :=
  answer .none none { s with pwm := setChannel s.cfg ch en s.pwm }

end Sys2Proof.Machine
end

