-- ==== Sys2Proof/Machine/System.lean ====
section
/-! DEFINITION. System operations: `RESET` (45_system.md). There is no other (R241). -/

namespace Sys2Proof.Machine

/-- Every channel flag at 0, every pin high (45_system.md R240). -/
def channelsOff (c : Config) : List Bool := List.replicate c.nChannels false

/-- `RESET` (45_system.md R240): the only operation that writes every register. The configuration and what
the environment has yet to present are not registers and stay. -/
def execReset (s : State) : Answer :=
  answer .none none
    { s with
      decoder := { decoderReset s.decoder with pulseInProgress := false }
      debouncer := { lastKey := 0, repeatCount := 0, debounceTimer := 0 }
      pwm := { counter := 0, dutyLevel := 0, enabled := channelsOff s.cfg, active := channelsOff s.cfg } }

end Sys2Proof.Machine
end

