-- ==== Sys2Proof/Machine/Dispatch.lean ====
section
/-! DEFINITION. One arm per operation (20_memory.md R63). -/

namespace Sys2Proof.Machine

def exec (i : Instr) (s : State) : Host.Outcome State Fault Refusal :=
  match i with
  | .rise ts => Sys2Proof.Machine.execRise ts s
  | .fall ts => Sys2Proof.Machine.execFall ts s
  | .wtick => Sys2Proof.Machine.execWtick s
  | .ptick => Sys2Proof.Machine.execPtick s
  | .keyrd => Sys2Proof.Machine.execKeyrd s
  | .dbstep k => Sys2Proof.Machine.execDbstep k s
  | .poll => Sys2Proof.Machine.execPoll s
  | .setduty v => Sys2Proof.Machine.execSetduty v s
  | .seten ch en => Sys2Proof.Machine.execSeten ch en s
  | .reset => Sys2Proof.Machine.execReset s

end Sys2Proof.Machine
end

