-- ==== Sys2Proof/Machine/Step.lean ====
section
/-! DEFINITION. One step of the block: the operation the environment presents, performed as one atomic
transition (20_memory.md R63, R70). -/

namespace Sys2Proof.Machine

/-- Perform the operation a word encodes; a reserved word is refused (30_encoding.md R96). -/
def perform (w : Word) (s : State) : Host.Outcome State Fault Refusal :=
  match decode w with
  | .error e => refuseReserved w e
  | .ok i => exec i s

/-- One step. An illegal configuration is refused (00_scope.md R10); with `op_valid` = 0 nothing is
performed; otherwise the word on the operation port is performed (20_memory.md R63). -/
def step (s : State) : Host.Outcome State Fault Refusal :=
  match s.cfg.check with
  | some e => .refused (.illegalConfiguration e)
  | none =>
    match presented s with
    | none => idleStep s
    | some w => perform w (taken s)

/-- The state with the instruction of a table row on the operation port, so that the very next step performs
it (notes/assumptions/1.md). -/
def State.withFetchWord (s : State) (nbits w : Nat) : State := presentNext (tableWord nbits w) s

end Sys2Proof.Machine
end

