-- ==== Sys2Proof/Machine/Errors.lean ====
section
/-! DEFINITION. The error taxonomy (60_exceptions.md R250 to R258): which condition, if any, an operation
meets in a state. "A model may log them" (R257): no meaning reads a label, and none is stored. -/

namespace Sys2Proof.Machine

/-- The condition a `FALL` of class `p` meets (60_exceptions.md R251, R252, R255). -/
def pulseLabel (p : PulseClass) (d : DecoderState) : Option ErrorLabel :=
  match p with
  | .invalid => some .spuriousPulse
  | .repeatCode => if d.phase = .receiving then none else some .repeatWithoutActiveFrame
  | .bitZero => if d.phase = .idle then some .noSignal else none
  | .bitOne => if d.phase = .idle then some .noSignal else none
  | .leader => none

/-- The condition a key read meets, alone or inside `POLL` (60_exceptions.md R251, R254). -/
def readLabel (c : Config) (d : DecoderState) : Option ErrorLabel :=
  if d.frameReady && !(validate d.accumulator c.deviceId).valid then some .checksumOrAddressMismatch
  else if d.phase = .idle then some .noSignal
  else none

/-- The condition a watchdog tick meets (60_exceptions.md R251, R253). -/
def tickLabel (c : Config) (d : DecoderState) : Option ErrorLabel :=
  if d.phase = .idle then some .noSignal
  else if decide (d.bitCount.toNat < frameBits) && ceilingReached c d then some .frameTimeout
  else none

/-- The one error condition the operation meets, if any (60_exceptions.md R250, R263). -/
def errorLabel (i : Instr) (s : State) : Option ErrorLabel :=
  match i with
  | .fall ts =>
    if s.decoder.pulseInProgress then pulseLabel (classify s.cfg ts) s.decoder else none
  | .wtick => tickLabel s.cfg s.decoder
  | .keyrd => readLabel s.cfg s.decoder
  | .poll => readLabel s.cfg s.decoder
  | .rise _ => none
  | .ptick => none
  | .dbstep _ => none
  | .setduty _ => none
  | .seten _ _ => none
  | .reset => none

end Sys2Proof.Machine
end

