-- ==== Sys2Proof/Machine/Ports.lean ====
section
/-! DEFINITION. What the block shows at its ports (20_memory.md R64, R66 to R68) and the codes of its
enumerations (30_encoding.md R100 to R103). Reading a port is no operation and has no side effect (R71). -/

namespace Sys2Proof.Machine

/-- The status port (20_memory.md R64). -/
structure StatusPort where
  frameReady : Bool
  repeatCount : BitVec 8
deriving DecidableEq, Repr

/-- The levels of the status port (20_memory.md R64). -/
def statusPort (s : State) : StatusPort where
  frameReady := s.decoder.frameReady
  repeatCount := s.decoder.repeatCounter

/-- One pin, active-low: `pin[i] = ~active[i]` (20_memory.md R66). -/
def pin (s : State) (i : Nat) : Bool := !(activeAt s.pwm i)

/-- The PWM output port, channel 0 first (20_memory.md R66). -/
def pins (s : State) : List Bool := (List.range s.cfg.nChannels).map (pin s)

/-- The operation a capture event is presented as; `Edge` is encoded by the opcode (10_state.md R32;
30_encoding.md R102). -/
def captureOperation (e : CaptureEvent) : Instr :=
  match e.edge with
  | .rising => .rise e.timestamp
  | .falling => .fall e.timestamp

/-- `Class` codes (30_encoding.md R100). -/
def classCode : PulseClass → BitVec 3
  | .invalid => 0
  | .leader => 1
  | .bitZero => 2
  | .bitOne => 3
  | .repeatCode => 4

/-- `Phase` codes (30_encoding.md R101). -/
def phaseCode : Phase → BitVec 2
  | .idle => 0
  | .leaderSeen => 1
  | .receiving => 2

/-- `EventKind` codes (30_encoding.md R102). -/
def eventKindCode : EventKind → BitVec 1
  | .press => 0
  | .repeatEv => 1

/-- `res_kind` (20_memory.md R67; 30_encoding.md R103). -/
def resKind : Result → BitVec 2
  | .none => 0
  | .key _ => 1
  | .timedOut => 2

/-- `res_data`, which the spec gives for `KEY` only (20_memory.md R67; notes/assumptions/9.md). -/
def resData : Result → Option Byte
  | .key code => some code
  | .none => Option.none
  | .timedOut => Option.none

/-- `ev_valid` (20_memory.md R68). -/
def evValid (s : State) : Bool := s.event.isSome

/-- `ev_kind`, given while `ev_valid` is 1 (20_memory.md R68). -/
def evKind (s : State) : Option (BitVec 1) := s.event.map fun e => eventKindCode e.kind

/-- `ev_key`, given while `ev_valid` is 1 (20_memory.md R68). -/
def evKey (s : State) : Option Byte := s.event.map Event.key

end Sys2Proof.Machine
end

