-- ==== Sys2Proof/Machine/Trace.lean ====
section
/-! DEFINITION. Traces: the pseudo-operations (30_encoding.md R111), the trace syntax (R110), and performing a
sequence of operations in order (20_memory.md R72). -/

namespace Sys2Proof.Machine

/-- Perform operations one after another in the total order of a trace (20_memory.md R72, R75). -/
def performAll : List Instr → State → Answer
  | [], s => .next s
  | i :: is, s =>
    match exec i s with
    | .next t => performAll is t
    | .fault f => .fault f
    | .refused r => .refused r

/-- The dispatch events the operations of a trace emit, in order (20_memory.md R68). -/
def eventsAlong : List Instr → State → List Event
  | [], _ => []
  | i :: is, s =>
    match exec i s with
    | .next t => t.event.toList ++ eventsAlong is t
    | .fault _ => []
    | .refused _ => []

/-- The error conditions the operations of a trace meet, in order: the event history a model may log
(60_exceptions.md R257). -/
def labelsAlong : List Instr → State → List ErrorLabel
  | [], _ => []
  | i :: is, s =>
    match exec i s with
    | .next t => (errorLabel i s).toList ++ labelsAlong is t
    | .fault _ => []
    | .refused _ => []

/-- The levels that present a sequence of operations, one a step. -/
def presentAll (is : List Instr) : List OpPort :=
  is.map fun i => { opValid := true, opWord := encode i }

/-! The pseudo-operations of 30_encoding.md R111. -/

/-- `PULSE d`. -/
def pulse (d : Micros) : List Instr := [.rise 0, .fall d]

/-- `LEADER`. -/
def leaderPulse : List Instr := pulse 4500

/-- `BIT0`. -/
def bit0Pulse : List Instr := pulse 560

/-- `BIT1`. -/
def bit1Pulse : List Instr := pulse 1680

/-- `REPEAT`. -/
def repeatPulse : List Instr := pulse 2250

/-- `NOISE`. -/
def noisePulse : List Instr := pulse 1000

/-- One data bit. -/
def dataPulse (b : Bool) : List Instr := if b then bit1Pulse else bit0Pulse

/-- The bits of a frame in the order they are sent, bit 31 first (30_encoding.md R104). -/
def wireBits (w : Word) : List Bool := (List.range frameBits).map fun j => w.getLsbD (frameBits - 1 - j)

/-- `FRAME w`. -/
def framePulses (w : Word) : List Instr := leaderPulse ++ (wireBits w).flatMap dataPulse

/-- `TICK`. -/
def tickBoth : List Instr := [.wtick, .ptick]

/-- `X*n`. -/
def times (n : Nat) (x : List Instr) : List Instr := (List.replicate n x).flatten

/-! The trace syntax of 30_encoding.md R110, read from the characters of one line. What R110 leaves open of it
is fixed in notes/assumptions/13.md. -/

/-- A decimal digit's value. -/
def decDigit (c : Char) : Option Nat :=
  if '0' ≤ c ∧ c ≤ '9' then some (c.toNat - '0'.toNat) else none

/-- A hexadecimal digit's value. -/
def hexDigit (c : Char) : Option Nat :=
  if 'a' ≤ c ∧ c ≤ 'f' then some (c.toNat - 'a'.toNat + 10)
  else if 'A' ≤ c ∧ c ≤ 'F' then some (c.toNat - 'A'.toNat + 10)
  else decDigit c

/-- The number written in some base by digits that follow a value read so far. -/
def digitsFrom (base : Nat) (digit : Char → Option Nat) : Nat → List Char → Option Nat
  | acc, [] => some acc
  | acc, c :: cs => (digit c).bind fun d => digitsFrom base digit (acc * base + d) cs

/-- An unsigned operand: decimal, or hexadecimal after `0x`. -/
def readNat : List Char → Option Nat
  | [] => none
  | '0' :: 'x' :: c :: cs => digitsFrom 16 hexDigit 0 (c :: cs)
  | c :: cs => digitsFrom 10 decDigit 0 (c :: cs)

/-- An operand of a field of `n` bits; a value that does not fit is no operand. -/
def readField (n : Nat) (t : List Char) : Option (BitVec n) :=
  (readNat t).bind fun v => if v < 2 ^ n then some (BitVec.ofNat n v) else none

/-- The duty operand, which may carry a minus sign, -128..127. -/
def readDuty : List Char → Option Byte
  | '-' :: t => (readNat t).bind fun v => if v ≤ 128 then some (BitVec.ofInt 8 (-(v : Int))) else none
  | t => (readNat t).bind fun v => if v ≤ 127 then some (BitVec.ofNat 8 v) else none

/-- The enable operand, 0 or 1. -/
def readFlag (t : List Char) : Option Bool :=
  match readNat t with
  | some 0 => some false
  | some 1 => some true
  | _ => none

/-- A separator between the tokens of a line. -/
def isBlank (c : Char) : Bool := c = ' ' || c = ',' || c = '\t'

/-- The tokens of a line, given the characters of the token being read, last first. -/
def tokensFrom : List Char → List Char → List (List Char)
  | cur, [] => if cur.isEmpty then [] else [cur.reverse]
  | cur, c :: cs =>
    if isBlank c then (if cur.isEmpty then tokensFrom [] cs else cur.reverse :: tokensFrom [] cs)
    else tokensFrom (c :: cur) cs

/-- The tokens of a line. -/
def tokens (line : List Char) : List (List Char) := tokensFrom [] line

/-- One operation or pseudo-operation, expanded (30_encoding.md R110, R111). -/
def readOperation (ts : List (List Char)) : Option (List Instr) :=
  match ts with
  | [['R', 'I', 'S', 'E'], a] => (readField 16 a).map fun t => [.rise t]
  | [['F', 'A', 'L', 'L'], a] => (readField 16 a).map fun t => [.fall t]
  | [['W', 'T', 'I', 'C', 'K']] => some [.wtick]
  | [['P', 'T', 'I', 'C', 'K']] => some [.ptick]
  | [['K', 'E', 'Y', 'R', 'D']] => some [.keyrd]
  | [['D', 'B', 'S', 'T', 'E', 'P'], a] => (readField 8 a).map fun k => [.dbstep k]
  | [['P', 'O', 'L', 'L']] => some [.poll]
  | [['S', 'E', 'T', 'D', 'U', 'T', 'Y'], a] => (readDuty a).map fun v => [.setduty v]
  | [['S', 'E', 'T', 'E', 'N'], a, b] =>
    (readField 8 a).bind fun ch => (readFlag b).map fun en => [.seten ch en]
  | [['R', 'E', 'S', 'E', 'T']] => some [.reset]
  | [['P', 'U', 'L', 'S', 'E'], a] => (readField 16 a).map pulse
  | [['L', 'E', 'A', 'D', 'E', 'R']] => some leaderPulse
  | [['B', 'I', 'T', '0']] => some bit0Pulse
  | [['B', 'I', 'T', '1']] => some bit1Pulse
  | [['R', 'E', 'P', 'E', 'A', 'T']] => some repeatPulse
  | [['N', 'O', 'I', 'S', 'E']] => some noisePulse
  | [['F', 'R', 'A', 'M', 'E'], a] => (readField 32 a).map framePulses
  | [['T', 'I', 'C', 'K']] => some tickBoth
  | _ => none

/-- A line without its context tag, which "has no effect on meaning" (30_encoding.md R110). -/
def dropTag : List (List Char) → List (List Char)
  | ['E', ':'] :: ts => ts
  | ['T', ':'] :: ts => ts
  | ['M', ':'] :: ts => ts
  | ts => ts

/-- One line of a trace (30_encoding.md R110): the operations it stands for; none at all for an empty line or a
comment; no answer for a line that is not of the syntax. A line carries one repeat count at most: R111 does not say
whether the `X` of `X*n` may itself be a repetition, and a line such as `BIT1*2*3` has no answer. DESIGN CHOICE, safe
(notes/assumptions/13.md). -/
def readLine (line : List Char) : Option (List Instr) :=
  let text := line.takeWhile (· ≠ ';')
  let body := text.takeWhile (· ≠ '*')
  let op := dropTag (tokens body)
  match text.dropWhile (· ≠ '*') with
  | [] => if op.isEmpty then some [] else readOperation op
  | _ :: count =>
    match tokens count with
    | [n] => (readNat n).bind fun k => (readOperation op).map (times k)
    | _ => none

/-- A trace: its lines in the total order of 20_memory.md R72. -/
def readTrace : List (List Char) → Option (List Instr)
  | [] => some []
  | l :: ls => (readLine l).bind fun is => (readTrace ls).map (is ++ ·)

end Sys2Proof.Machine
end

