-- ==== Sys2Proof/Safety.lean ====
section
/-! DEFINITION. The invariants of the block (10_state.md R44 to R49) and the environment's duties
(20_memory.md R65, R73, R80; 60_exceptions.md R271), in the terms claims use. -/

namespace Sys2Proof.Machine

/-- Tying the phase to the registers it governs (10_state.md R44, R45). -/
def PhaseInv (d : DecoderState) : Prop :=
  (d.phase = .idle →
    d.bitCount = 0 ∧ d.watchdogTicks = 0 ∧ d.frameReady = false ∧ d.repeatCounter = 0 ∧ d.accumulator = 0) ∧
  (d.phase = .leaderSeen → d.bitCount = 0 ∧ d.frameReady = false ∧ d.repeatCounter = 0) ∧
  (d.phase = .receiving ↔ 1 ≤ d.bitCount.toNat ∧ d.bitCount.toNat ≤ 32) ∧
  d.bitCount.toNat ≤ 32

/-- The frame-ready flag and the watchdog (10_state.md R46). -/
def FrameInv (c : Config) (d : DecoderState) : Prop :=
  (d.frameReady = true ↔ d.bitCount.toNat = 32) ∧
  d.watchdogTicks.toNat ≤ c.wdtCeiling.toNat ∧
  (d.bitCount.toNat < 32 → d.watchdogTicks.toNat ≤ c.wdtCeiling.toNat - 1)

/-- The decoder's invariant (10_state.md R44 to R46). -/
def DecoderInv (c : Config) (d : DecoderState) : Prop := PhaseInv d ∧ FrameInv c d

/-- The debouncer's invariant (10_state.md R48). -/
def DebounceInv (c : Config) (b : DebounceState) : Prop :=
  b.debounceTimer.toNat ≤ c.debounceWindow.toNat ∧
  (b.lastKey = 0 → b.repeatCount = 0) ∧
  (b.lastKey ∈ c.whitelist → b.repeatCount.toNat ≤ c.holdThreshold.toNat - 1)

/-- The PWM engine's invariant (10_state.md R49). -/
def PwmInv (p : PwmState) : Prop := p.counter.toNat ≤ 9 ∧ p.dutyLevel.toNat ≤ 10

/-- One enable flag and one output flag for every channel (10_state.md R38, R39): the form the model's two flag
banks keep (notes/assumptions/10.md). -/
def ChannelForm (c : Config) (p : PwmState) : Prop :=
  p.enabled.length = c.nChannels ∧ p.active.length = c.nChannels

/-- The invariants of 10_state.md section 6 together. -/
def BlockInv (s : State) : Prop :=
  DecoderInv s.cfg s.decoder ∧ DebounceInv s.cfg s.debouncer ∧ PwmInv s.pwm

/-- A complete, unconsumed frame is held (00_scope.md R16, "tracked frame"). -/
def TracksFrame (d : DecoderState) : Prop :=
  d.phase = .receiving ∧ d.bitCount.toNat = 32 ∧ d.frameReady = true

/-- The three tests of a valid frame written as sums: a byte and its complement add up to 255
(42_frame_validator.md R172). -/
def ValidFrameFor (id : Byte) (w : Word) : Prop :=
  w.toNat / 2 ^ 24 + w.toNat / 2 ^ 16 % 256 = 255 ∧ w.toNat / 2 ^ 24 = id.toNat ∧
  w.toNat / 2 ^ 8 % 256 + w.toNat % 256 = 255

/-- The command byte of a frame (30_encoding.md R104). -/
def commandOf (w : Word) : Byte := BitVec.ofNat 8 (w.toNat / 2 ^ 8)

/-- The decoder's registers at their initial values but for the pulse flag (41_frame_assembler.md R160). -/
def clearedDecoder (pulse : Bool) : DecoderState where
  phase := .idle
  bitCount := 0
  accumulator := 0
  watchdogTicks := 0
  pulseInProgress := pulse
  frameReady := false
  repeatCounter := 0

/-- A duration lies in a band, the end-points included or not (40_edge_classifier.md R121, R124). -/
def InBand (c : Config) (b : Band) (d : Micros) : Prop :=
  if c.bandClosed then b.lo.toNat ≤ d.toNat ∧ d.toNat ≤ b.hi.toNat
  else b.lo.toNat < d.toNat ∧ d.toNat < b.hi.toNat

/-- The bands of 40_edge_classifier.md R121, closed. -/
def SourceBands (c : Config) : Prop :=
  c.leaderBand = { lo := 4200, hi := 4700 } ∧ c.bit0Band = { lo := 300, hi := 800 } ∧
  c.bit1Band = { lo := 1400, hi := 1800 } ∧ c.repeatBand = { lo := 2200, hi := 2600 } ∧ c.bandClosed = true

/-- The class of a data bit. -/
def bitClass (b : Bool) : PulseClass := if b then .bitOne else .bitZero

/-- The output of channel `i` after `n` PWM ticks, if they are performed. -/
def activeAfterTicks (s : State) (i n : Nat) : Bool :=
  match performAll (List.replicate n .ptick) s with
  | .next t => activeAt t.pwm i
  | .fault _ => false
  | .refused _ => false

/-- The PWM counter after `n` PWM ticks, if they are performed. -/
def counterAfterTicks (s : State) (n : Nat) : Option Nat :=
  match performAll (List.replicate n .ptick) s with
  | .next t => some t.pwm.counter.toNat
  | .fault _ => none
  | .refused _ => none

/-- The registers of two states are the same: all that persists from one operation to the next
(10_state.md R20). The ports of the operation just performed may differ. -/
def SameRegisters (s t : State) : Prop :=
  s.cfg = t.cfg ∧ s.decoder = t.decoder ∧ s.debouncer = t.debouncer ∧ s.pwm = t.pwm ∧ s.opPort = t.opPort

/-- The contexts of 60_exceptions.md R271 that issue operations; `RESET` "belongs to system start". -/
inductive Context where
  | edgeCapture
  | timer
  | mainLoop
  | systemStart
deriving DecidableEq, Repr

/-- Who should issue an operation (60_exceptions.md R271); the block enforces nothing (R270). -/
def issuer : Instr → Context
  | .rise _ => .edgeCapture
  | .fall _ => .edgeCapture
  | .wtick => .timer
  | .ptick => .timer
  | .keyrd => .mainLoop
  | .dbstep _ => .mainLoop
  | .poll => .mainLoop
  | .setduty _ => .mainLoop
  | .seten _ _ => .mainLoop
  | .reset => .systemStart

/-- The duty of R80 "each context issues only its own operations", on operations tagged with who presents
them. -/
def ownersRespected (ops : List (Context × Instr)) : Bool := ops.all fun x => decide (issuer x.2 = x.1)

/-- The duty of 20_memory.md R65 on a sequence of operations: edges alternate, and the first after a reset is a
rising edge. The flag says that a high pulse is in progress before the sequence. -/
def edgesAlternate : Bool → List Instr → Bool
  | _, [] => true
  | high, .rise _ :: is => !high && edgesAlternate true is
  | high, .fall _ :: is => high && edgesAlternate false is
  | _, .reset :: is => edgesAlternate false is
  | high, .wtick :: is => edgesAlternate high is
  | high, .ptick :: is => edgesAlternate high is
  | high, .keyrd :: is => edgesAlternate high is
  | high, .dbstep _ :: is => edgesAlternate high is
  | high, .poll :: is => edgesAlternate high is
  | high, .setduty _ :: is => edgesAlternate high is
  | high, .seten _ _ :: is => edgesAlternate high is

/-- The duty of 20_memory.md R65 on the lengths a capture unit reports: a timestamp of `TS_WIDTH` bits, the true
length where it fits and the largest one where it does not (D2). -/
def reportedLength (c : Config) (trueMicros : Nat) : Micros :=
  BitVec.ofNat 16 (min trueMicros (min 65535 (2 ^ c.tsWidth - 1)))

/-- An operation of the PWM engine. -/
def pwmOperation : Instr → Bool
  | .ptick | .setduty _ | .seten _ _ => true
  | .rise _ | .fall _ | .wtick | .keyrd | .dbstep _ | .poll | .reset => false

/-- An operation of the decoder chain or the debouncer (20_memory.md R78). -/
def keyOperation : Instr → Bool
  | .rise _ | .fall _ | .wtick | .keyrd | .dbstep _ | .poll => true
  | .ptick | .setduty _ | .seten _ _ | .reset => false

end Sys2Proof.Machine
end

