-- ==== Sys2Proof/Certificates/Slice0/Obligations.lean ====
section
/-! DEFINITION. The statements for the provers, from the numbered rules of spec/. Each says what it formalises;
OBLIGATIONS.json lists them. -/

open Sys2Proof Sys2Proof.Machine

/-! ## Encoding -/

/-- 30_encoding.md R97: a word decodes to an operation exactly when it matches a row's fixed bits, the
operation being the row's with its operands extracted, and at most one row matches. -/
def Obligations.DecodingFollowsTheOneMatchingRow : Prop :=
  (∀ (w : Word) (i : Instr), decode w = .ok i ↔ ∃ r : OpRow, w &&& r.mask = r.matchBits ∧ i = r.assemble w) ∧
  (∀ (w : Word) (r q : OpRow), w &&& r.mask = r.matchBits → w &&& q.mask = q.matchBits → r = q)

/-- Decode and encode agree, from the operation's side: every operation, with every operand at every value. -/
def Obligations.DecodeOfEncodeIsTheOperation : Prop :=
  ∀ i : Instr, decode (encode i) = .ok i

/-- Decode and encode agree, from the word's side: an operation has one word only. -/
def Obligations.EncodeOfDecodeIsTheWord : Prop :=
  ∀ (w : Word) (i : Instr), decode w = .ok i → encode i = w

/-- Words written out from the encoding table of 30_encoding.md R90 (95_test_vectors.md section 2.6). -/
def Obligations.SpecWordsDecodeToTheirOperations : Prop :=
  decode 0x10000230 = .ok (.rise 560) ∧ decode 0x20001194 = .ok (.fall 4500) ∧
  decode 0x30000000 = .ok .wtick ∧ decode 0x40000000 = .ok .ptick ∧ decode 0x50000000 = .ok .keyrd ∧
  decode 0x6000009A = .ok (.dbstep 0x9A) ∧ decode 0x70000000 = .ok .poll ∧
  decode 0x800000FD = .ok (.setduty (BitVec.ofInt 8 (-3))) ∧ decode 0x90000201 = .ok (.seten 2 true) ∧
  decode 0x90000300 = .ok (.seten 3 false) ∧ decode 0xA0000000 = .ok .reset

/-- 30_encoding.md R96: a reserved word on the operation port is refused, by name. -/
def Obligations.ReservedWordIsRefused : Prop :=
  ∀ (s : State) (w : Word) (rest : List OpPort),
    s.cfg.legal = true → s.opPort = { opValid := true, opWord := w } :: rest →
    (∀ r : OpRow, w &&& r.mask ≠ r.matchBits) →
    if w.toNat / 2 ^ 28 = 0 ∨ 11 ≤ w.toNat / 2 ^ 28 then step s = .refused (.reservedOpcode w)
    else step s = .refused (.mustBeZero w)

/-! ## The step -/

/-- 20_memory.md R63: when `op_valid` is 1 the block performs the operation that `op_word` encodes. The step takes
this step's levels off `opPort`, the model's own list (notes/assumptions/1.md), and adds nothing else around the
operation. -/
def Obligations.StepPerformsThePresentedOperation : Prop :=
  ∀ (s : State) (w : Word) (rest : List OpPort) (i : Instr),
    s.cfg.legal = true → s.opPort = { opValid := true, opWord := w } :: rest → decode w = .ok i →
    step s = exec i { s with opPort := rest }

/-- Every operation, put on the operation port as its encoding, is what the next step performs. That a run is
driven by such words is the model's choice (notes/assumptions/1.md). -/
def Obligations.StoredEncodingIsPerformedNext : Prop :=
  ∀ (s : State) (i : Instr), s.cfg.legal = true →
    step (s.withFetchWord 32 (encode i).toNat) = exec i { s with opPort := s.opPort.tail }

/-- A step in which nothing is presented changes no register. That the result and dispatch ports then carry
nothing is the model's reading (notes/assumptions/2.md). -/
def Obligations.StepWithNothingPresentedIsIdle : Prop :=
  ∀ s : State, s.cfg.legal = true → (∀ p ∈ s.opPort.head?, p.opValid = false) →
    step s = .next { s with opPort := s.opPort.tail, result := .none, event := none }

/-- 00_scope.md R9 and R10: a configuration outside its ranges or breaking a constraint is refused, and no other.
That bands are disjoint as sets of durations is the model's reading (notes/assumptions/6.md). -/
def Obligations.StepRefusesExactlyTheIllegalConfigurations : Prop :=
  ∀ s : State,
    (¬∃ e, step s = .refused (.illegalConfiguration e)) ↔
      (∀ b ∈ s.cfg.bands, b.lo.toNat ≤ b.hi.toNat) ∧
      s.cfg.bands.Pairwise (fun a b => ∀ d : Micros, ¬(InBand s.cfg a d ∧ InBand s.cfg b d)) ∧
      13 ≤ s.cfg.tsWidth ∧ s.cfg.leaderBand.hi.toNat + 1 < 2 ^ s.cfg.tsWidth ∧
      1 ≤ s.cfg.wdtCeiling.toNat ∧ s.cfg.debounceWindow.toNat ≤ 10 ∧ 1 ≤ s.cfg.holdThreshold.toNat ∧
      s.cfg.repeatReload.toNat < s.cfg.holdThreshold.toNat ∧ 0 ∉ s.cfg.whitelist ∧
      1 ≤ s.cfg.nChannels ∧ s.cfg.nChannels ≤ 256 ∧ 1 ≤ s.cfg.repeatCntWidth

/-- 10_state.md R40: no step writes a parameter. That a step also takes one entry of `opPort`, the model's list of the
operation port's coming levels, is the model's choice and no rule's (notes/assumptions/1.md). -/
def Obligations.NoStepWritesTheConfiguration : Prop :=
  ∀ s t : State, step s = .next t → t.cfg = s.cfg ∧ t.opPort = s.opPort.tail

/-- 20_memory.md R79: every operation is enabled in every state. -/
def Obligations.EveryOperationCompletesInEveryState : Prop :=
  ∀ (i : Instr) (s : State), ∃ t, exec i s = .next t

/-! ## Reset -/

/-- 70_reset_and_hazards.md R280: the value reset leaves in every register, at system start with any parameters and
whenever `RESET` is performed. -/
def Obligations.ResetLeavesEveryRegisterAtItsResetValue : Prop :=
  ∀ t : State,
    (t = State.reset ∨ (∃ c ops, t = State.boot c ops) ∨ (∃ s, exec .reset s = .next t)) →
    t.decoder.phase = .idle ∧ t.decoder.bitCount = 0 ∧ t.decoder.accumulator = 0 ∧ t.decoder.watchdogTicks = 0 ∧
    t.decoder.pulseInProgress = false ∧ t.decoder.frameReady = false ∧ t.decoder.repeatCounter = 0 ∧
    t.debouncer.lastKey = 0 ∧ t.debouncer.repeatCount = 0 ∧ t.debouncer.debounceTimer = 0 ∧
    t.pwm.counter = 0 ∧ t.pwm.dutyLevel = 0 ∧
    ∀ i < t.cfg.nChannels, t.pwm.enabled[i]? = some false ∧ t.pwm.active[i]? = some false

/-- 45_system.md R240: `RESET` writes every register, in every state; the configuration and what the environment
has yet to present stay; and every other operation leaves the PWM engine or the whole key chain as it was. -/
def Obligations.ResetOperationWritesEveryRegister : Prop :=
  (∀ s : State, exec .reset s = .next
    { s with
      decoder := clearedDecoder false
      debouncer := { lastKey := 0, repeatCount := 0, debounceTimer := 0 }
      pwm :=
        { counter := 0
          dutyLevel := 0
          enabled := List.replicate s.cfg.nChannels false
          active := List.replicate s.cfg.nChannels false }
      result := .none
      event := none }) ∧
  ∀ (i : Instr) (s t : State), exec i s = .next t → i ≠ .reset →
    t.pwm = s.pwm ∨ (t.decoder = s.decoder ∧ t.debouncer = s.debouncer)

/-- 70_reset_and_hazards.md R282: the outputs of a booted block, and that the pins stay high until a PWM tick finds
an enabled channel and a counter below the duty level. -/
def Obligations.OutputsAtResetAndUntilATickLights : Prop :=
  ∀ (c : Config) (ops : List OpPort),
    pins (State.boot c ops) = List.replicate c.nChannels true ∧
    (statusPort (State.boot c ops)).frameReady = false ∧ (statusPort (State.boot c ops)).repeatCount = 0 ∧
    resKind (State.boot c ops).result = 0 ∧ evValid (State.boot c ops) = false ∧
    ∀ (i : Instr) (s t : State) (n : Nat), exec i s = .next t → pin s n = true → pin t n = false →
      i = .ptick ∧ enabledAt s.pwm n = true ∧ t.pwm.counter.toNat < s.pwm.dutyLevel.toNat

/-! ## EdgeTimingDecoder -/

/-- 40_edge_classifier.md R121 in its general form: a duration has a class exactly when it is in that class's band,
and is INVALID exactly when it is in none. -/
def Obligations.ClassIsTheOneBandThatHoldsTheDuration : Prop :=
  ∀ (c : Config) (d : Micros), c.legal = true →
    (classify c d = .leader ↔ InBand c c.leaderBand d) ∧
    (classify c d = .bitZero ↔ InBand c c.bit0Band d) ∧
    (classify c d = .bitOne ↔ InBand c c.bit1Band d) ∧
    (classify c d = .repeatCode ↔ InBand c c.repeatBand d) ∧
    (classify c d = .invalid ↔ ∀ b ∈ c.bands, ¬InBand c b d)

/-- 40_edge_classifier.md R124: with the source's bands the end-points are in their bands and their outer neighbours are
INVALID; the end-points are the only durations whose class depends on `BAND_CLOSED`, and are INVALID when the
bands are open. -/
def Obligations.OnlyTheEightEndPointsDependOnBandClosed : Prop :=
  ∀ (c : Config) (d : Micros), SourceBands c →
    (d.toNat ∈ [300, 800] → classify c d = .bitZero) ∧
    (d.toNat ∈ [1400, 1800] → classify c d = .bitOne) ∧
    (d.toNat ∈ [2200, 2600] → classify c d = .repeatCode) ∧
    (d.toNat ∈ [4200, 4700] → classify c d = .leader) ∧
    (d.toNat ∈ [0, 299, 801, 1399, 1801, 2199, 2601, 4199, 4701] → classify c d = .invalid) ∧
    (classify { c with bandClosed := false } d ≠ classify c d ↔
      d.toNat ∈ [300, 800, 1400, 1800, 2200, 2600, 4200, 4700]) ∧
    (d.toNat ∈ [300, 800, 1400, 1800, 2200, 2600, 4200, 4700] →
      classify { c with bandClosed := false } d = .invalid)

/-- 40_edge_classifier.md R122 (c): two durations of one class are indistinguishable to the whole block. -/
def Obligations.SameClassSameFall : Prop :=
  ∀ (s : State) (a b : Micros),
    (∀ x ∈ s.cfg.bands, InBand s.cfg x a ↔ InBand s.cfg x b) → exec (.fall a) s = exec (.fall b) s

/-! ## FrameAssembler -/

/-- 41_frame_assembler.md R137, R138: `RISE` sets the pulse flag, in any phase and whatever its operand, and nothing
else; it meets no error condition. -/
def Obligations.RiseSetsThePulseFlagOnly : Prop :=
  ∀ (s : State) (ts : Micros),
    exec (.rise ts) s =
      .next { s with decoder := { s.decoder with pulseInProgress := true }, result := .none, event := none } ∧
    errorLabel (.rise ts) s = none

/-- 41_frame_assembler.md R140: a falling edge with no pulse in progress changes nothing and meets no error condition;
with a correct environment (edges alternate, the first one rising) it never occurs. -/
def Obligations.FallWithoutAPulseChangesNothing : Prop :=
  (∀ (s : State) (ts : Micros), s.decoder.pulseInProgress = false →
    exec (.fall ts) s = .next { s with result := .none, event := none } ∧ errorLabel (.fall ts) s = none) ∧
  ∀ (before after : List Instr) (ts : Micros) (s t : State),
    edgesAlternate s.decoder.pulseInProgress (before ++ .fall ts :: after) = true →
    performAll before s = .next t → t.decoder.pulseInProgress = true

/-- 41_frame_assembler.md R142 to R149: what a falling edge with a pulse in progress does, class by class; every
other register stays, and the pulse flag is cleared. Where the counter of an accepted REPEAT saturates at a counter
width below 8 is the model's choice (notes/assumptions/8.md); at 8 or more it is R146's 255. -/
def Obligations.FallFollowsTheTransitionTable : Prop :=
  ∀ (s : State) (ts : Micros), s.decoder.pulseInProgress = true →
    ∃ d : DecoderState,
      exec (.fall ts) s =
        .next { s with decoder := { d with pulseInProgress := false }, result := .none, event := none } ∧
      (classify s.cfg ts = .leader → s.decoder.phase = .idle →
        d = { s.decoder with
          phase := .leaderSeen, bitCount := 0, repeatCounter := 0, watchdogTicks := 0, frameReady := false }) ∧
      (classify s.cfg ts = .leader → s.decoder.phase ≠ .idle → d = s.decoder) ∧
      (∀ b : Bool, classify s.cfg ts = bitClass b → s.decoder.phase ≠ .idle → s.decoder.bitCount.toNat < 32 →
        d = { s.decoder with
          accumulator := (s.decoder.accumulator <<< 1) ||| (if b then 1 else 0)
          bitCount := s.decoder.bitCount + 1
          phase := .receiving
          frameReady := if s.decoder.bitCount.toNat + 1 = 32 then true else s.decoder.frameReady }) ∧
      (∀ b : Bool, classify s.cfg ts = bitClass b →
        s.decoder.phase = .idle ∨ 32 ≤ s.decoder.bitCount.toNat → d = s.decoder) ∧
      (classify s.cfg ts = .repeatCode → s.decoder.phase = .receiving →
        d = { s.decoder with
          repeatCounter := BitVec.ofNat 8 (min (s.decoder.repeatCounter.toNat + 1) (repeatCeiling s.cfg).toNat)
          watchdogTicks := 0 }) ∧
      (classify s.cfg ts = .repeatCode → s.decoder.phase ≠ .receiving → d = s.decoder) ∧
      (classify s.cfg ts = .invalid → d = s.decoder)

/-- 41_frame_assembler.md R146 and 20_memory.md R64: an accepted REPEAT raises the count on the status port, up to
255 at the default counter width, and zeroes the watchdog; the frame stays. Narrower counters saturate earlier,
by the model's choice (notes/assumptions/8.md). -/
def Obligations.AcceptedRepeatCountsAndFeedsTheWatchdog : Prop :=
  ∀ (s : State) (ts : Micros), s.decoder.pulseInProgress = true → s.decoder.phase = .receiving →
    classify s.cfg ts = .repeatCode → 8 ≤ s.cfg.repeatCntWidth →
    ∃ t, exec (.fall ts) s = .next t ∧
      (statusPort t).repeatCount.toNat = min ((statusPort s).repeatCount.toNat + 1) 255 ∧
      t.decoder.watchdogTicks = 0 ∧ t.decoder.accumulator = s.decoder.accumulator ∧
      t.decoder.bitCount = s.decoder.bitCount ∧ t.decoder.phase = s.decoder.phase ∧
      (statusPort t).frameReady = (statusPort s).frameReady ∧ t.decoder.pulseInProgress = false ∧
      t.debouncer = s.debouncer ∧ t.pwm = s.pwm ∧ t.cfg = s.cfg ∧ t.opPort = s.opPort ∧
      t.result = .none ∧ t.event = none

/-- 41_frame_assembler.md R152, R153, R155, R156: what a watchdog tick does. -/
def Obligations.WatchdogTickFollowsItsRules : Prop :=
  ∀ s : State, ∃ (d : DecoderState) (r : Result),
    exec .wtick s = .next { s with decoder := d, result := r, event := none } ∧
    (s.decoder.phase = .idle → d = s.decoder ∧ r = .none) ∧
    (s.decoder.phase ≠ .idle → s.decoder.bitCount.toNat = 32 →
      d = { s.decoder with
        frameReady := true
        watchdogTicks := BitVec.ofNat 4 (min (s.decoder.watchdogTicks.toNat + 1) s.cfg.wdtCeiling.toNat) } ∧
      r = .none) ∧
    (s.decoder.phase ≠ .idle → s.decoder.bitCount.toNat < 32 →
      s.decoder.watchdogTicks.toNat + 1 < s.cfg.wdtCeiling.toNat →
      d = { s.decoder with watchdogTicks := s.decoder.watchdogTicks + 1 } ∧ r = .none) ∧
    (s.decoder.phase ≠ .idle → s.decoder.bitCount.toNat < 32 →
      s.cfg.wdtCeiling.toNat ≤ s.decoder.watchdogTicks.toNat + 1 →
      d = clearedDecoder s.decoder.pulseInProgress ∧ r = .timedOut)

/-- 41_frame_assembler.md R157: with no accepted REPEAT, the tick number `WDT_CEILING` after the leader resets a
partial frame, and fewer ticks do not. -/
def Obligations.PartialFrameTimesOutAtTheCeiling : Prop :=
  ∀ s : State, 1 ≤ s.cfg.wdtCeiling.toNat → s.decoder.phase ≠ .idle → s.decoder.bitCount.toNat < 32 →
    s.decoder.watchdogTicks = 0 →
    (∀ n : Nat, n < s.cfg.wdtCeiling.toNat →
      ∃ t, performAll (List.replicate n .wtick) s = .next t ∧
        t.decoder = { s.decoder with watchdogTicks := BitVec.ofNat 4 n } ∧
        t.debouncer = s.debouncer ∧ t.pwm = s.pwm ∧ t.cfg = s.cfg ∧ t.opPort = s.opPort) ∧
    ∃ t, performAll (List.replicate s.cfg.wdtCeiling.toNat .wtick) s = .next t ∧
      t.decoder = clearedDecoder s.decoder.pulseInProgress ∧ t.result = .timedOut ∧
      t.debouncer = s.debouncer ∧ t.pwm = s.pwm ∧ t.cfg = s.cfg ∧ t.opPort = s.opPort

/-- 41_frame_assembler.md R153: a tracked frame is never reset by the watchdog, however many ticks pass, and its
tick count rests at the ceiling. -/
def Obligations.TrackedFrameOutlastsTheWatchdog : Prop :=
  ∀ (s : State) (n : Nat), TracksFrame s.decoder →
    s.decoder.watchdogTicks.toNat ≤ s.cfg.wdtCeiling.toNat →
    ∃ t, performAll (List.replicate n .wtick) s = .next t ∧
      t.decoder = { s.decoder with
        watchdogTicks := BitVec.ofNat 4 (min (s.decoder.watchdogTicks.toNat + n) s.cfg.wdtCeiling.toNat) } ∧
      t.debouncer = s.debouncer ∧ t.pwm = s.pwm ∧ t.cfg = s.cfg ∧ t.opPort = s.opPort

/-- 10_state.md R26: what can write the watchdog count downwards: an accepted leader, an accepted REPEAT and a
decoder reset, and nothing else; data bits and INVALID pulses do not restart the count (41_frame_assembler.md R157). -/
def Obligations.OnlyLeaderRepeatOrResetRestartTheWatchdog : Prop :=
  ∀ (i : Instr) (s t : State), BlockInv s → exec i s = .next t →
    t.decoder.watchdogTicks.toNat < s.decoder.watchdogTicks.toNat →
    t.decoder.watchdogTicks = 0 ∧
    ((∃ ts, i = .fall ts ∧ classify s.cfg ts = .repeatCode ∧ s.decoder.phase = .receiving) ∨
      (t.decoder.phase = .idle ∧ (i = .wtick ∨ i = .keyrd ∨ i = .poll ∨ i = .reset)))

/-- 10_state.md R22: `phase` is written only by an accepted leader, an accepted data bit and a decoder reset. -/
def Obligations.PhaseIsWrittenOnlyByItsThreeRules : Prop :=
  ∀ (i : Instr) (s t : State), exec i s = .next t →
    t.decoder.phase = s.decoder.phase ∨
    (∃ ts, i = .fall ts ∧ classify s.cfg ts = .leader ∧ s.decoder.phase = .idle ∧ t.decoder.phase = .leaderSeen) ∨
    (∃ ts b, i = .fall ts ∧ classify s.cfg ts = bitClass b ∧ s.decoder.phase ≠ .idle ∧
      t.decoder.phase = .receiving) ∨
    ((i = .wtick ∨ i = .keyrd ∨ i = .poll ∨ i = .reset) ∧
      t.decoder = clearedDecoder t.decoder.pulseInProgress)

/-- 10_state.md R27: the pulse flag is written by `RISE`, by `FALL` and by reset, and by nothing else. -/
def Obligations.PulseFlagIsWrittenByEdgesAndReset : Prop :=
  ∀ (i : Instr) (s t : State), exec i s = .next t →
    t.decoder.pulseInProgress =
      match i with
      | .rise _ => true
      | .fall _ => false
      | .reset => false
      | _ => s.decoder.pulseInProgress

/-- 10_state.md R47: after an accepted leader, 32 data pulses of any in-band lengths leave in the accumulator exactly
their bits, the first one at bit 31, whatever the accumulator held before. -/
def Obligations.ThirtyTwoBitsReplaceTheAccumulator : Prop :=
  ∀ (s : State) (bits : List (Bool × Micros)),
    s.decoder.phase = .leaderSeen → s.decoder.bitCount = 0 → bits.length = 32 →
    (∀ x ∈ bits, classify s.cfg x.2 = bitClass x.1) →
    ∃ t, performAll (bits.flatMap fun x => pulse x.2) s = .next t ∧
      (∀ j < 32, t.decoder.accumulator.getLsbD (31 - j) = (bits.map Prod.fst).getD j false) ∧
      t.decoder.bitCount.toNat = 32 ∧ t.decoder.phase = .receiving ∧ t.decoder.frameReady = true ∧
      t.decoder.watchdogTicks = s.decoder.watchdogTicks ∧ t.decoder.repeatCounter = s.decoder.repeatCounter ∧
      t.decoder.pulseInProgress = false ∧ t.debouncer = s.debouncer ∧ t.pwm = s.pwm ∧ t.cfg = s.cfg ∧
      t.opPort = s.opPort

/-- 30_encoding.md R104, R105, R111: every frame sent as its wire form to an idle decoder with the source's bands
arrives bit for bit and is tracked, and the next key read answers its command byte if it is valid for this device
and 0 if it is not. -/
def Obligations.EveryFrameArrivesAndIsRead : Prop :=
  ∀ (s : State) (w : Word), SourceBands s.cfg → 1 ≤ s.cfg.wdtCeiling.toNat → s.decoder.phase = .idle →
    ∃ t, performAll (framePulses w) s = .next t ∧
      t.decoder =
        { phase := .receiving, bitCount := 32, accumulator := w, watchdogTicks := 0, pulseInProgress := false
          frameReady := true, repeatCounter := 0 } ∧
      t.debouncer = s.debouncer ∧ t.pwm = s.pwm ∧ t.cfg = s.cfg ∧ t.opPort = s.opPort ∧
      ∃ u, exec .keyrd t = .next u ∧
        (ValidFrameFor s.cfg.deviceId w → u.result = .key (commandOf w) ∧ u.decoder = t.decoder) ∧
        (¬ValidFrameFor s.cfg.deviceId w → u.result = .key 0 ∧ u.decoder = clearedDecoder false)

/-! ## FrameValidator -/

/-- 42_frame_validator.md R172, R173: `VALIDATE` accepts exactly the frames that pass the three tests, one for each
command byte, and answers the command of an accepted frame and 0 for any other; a well-formed frame is valid
exactly when its address is the identifier. -/
def Obligations.ValidateAcceptsOneFramePerCommand : Prop :=
  ∀ (w : Word) (id : Byte),
    ((validate w id).valid = true ↔ ValidFrameFor id w) ∧
    ((validate w id).valid = true ↔ ∃ c : Byte, w = id ++ ~~~id ++ c ++ ~~~c) ∧
    ((validate w id).valid = true → (validate w id).code = commandOf w) ∧
    ((validate w id).valid = false → (validate w id).code = 0) ∧
    (wellFormedFrame (frameView w) = true → ((validate w id).valid = true ↔ (frameView w).address = id))

/-- 42_frame_validator.md R174 to R179: what a key read answers and what it leaves of the decoder; nothing else
changes. -/
def Obligations.KeyReadFollowsItsRules : Prop :=
  ∀ s : State, ∃ (k : Byte) (d : DecoderState),
    exec .keyrd s = .next { s with decoder := d, result := .key k, event := none } ∧
    (s.decoder.frameReady = false → k = 0 ∧ d = s.decoder) ∧
    (s.decoder.frameReady = true → ¬ValidFrameFor s.cfg.deviceId s.decoder.accumulator →
      k = 0 ∧ d = clearedDecoder s.decoder.pulseInProgress) ∧
    (s.decoder.frameReady = true → ValidFrameFor s.cfg.deviceId s.decoder.accumulator →
      s.cfg.wdtCeiling.toNat ≤ s.decoder.watchdogTicks.toNat →
      k = commandOf s.decoder.accumulator ∧ d = clearedDecoder s.decoder.pulseInProgress) ∧
    (s.decoder.frameReady = true → ValidFrameFor s.cfg.deviceId s.decoder.accumulator →
      s.decoder.watchdogTicks.toNat < s.cfg.wdtCeiling.toNat →
      k = commandOf s.decoder.accumulator ∧ d = s.decoder)

/-- 42_frame_validator.md R181: a tracked valid frame answers its code at every read up to and including the first
one that finds the watchdog at its ceiling; that read frees the decoder, and the next read answers 0. -/
def Obligations.KeyLivesUntilTheFirstExpiredRead : Prop :=
  ∀ (s : State) (n : Nat), TracksFrame s.decoder →
    ValidFrameFor s.cfg.deviceId s.decoder.accumulator →
    s.decoder.watchdogTicks.toNat ≤ s.cfg.wdtCeiling.toNat →
    ∃ t, performAll (List.replicate n .wtick ++ [.keyrd]) s = .next t ∧
      t.result = .key (commandOf s.decoder.accumulator) ∧
      (s.decoder.watchdogTicks.toNat + n < s.cfg.wdtCeiling.toNat → TracksFrame t.decoder ∧
        t.decoder.accumulator = s.decoder.accumulator) ∧
      (s.cfg.wdtCeiling.toNat ≤ s.decoder.watchdogTicks.toNat + n →
        t.decoder = clearedDecoder s.decoder.pulseInProgress ∧
        ∃ u, exec .keyrd t = .next u ∧ u.result = .key 0 ∧ u.decoder = t.decoder)

/-! ## KeyDebouncer -/

/-- 43_key_debouncer.md R195 to R200: the four cases of a debouncer step, with the event each emits; nothing outside
the debouncer changes. -/
def Obligations.DebouncerStepFollowsItsCases : Prop :=
  ∀ (s : State) (k : Byte), ∃ (b : DebounceState) (e : Option Event),
    exec (.dbstep k) s = .next { s with debouncer := b, result := .none, event := e } ∧
    (k ≠ s.debouncer.lastKey →
      b = { lastKey := k, repeatCount := 0, debounceTimer := s.cfg.debounceWindow } ∧
      e = if k = 0 then none else some { kind := .press, key := k }) ∧
    (k = s.debouncer.lastKey → k ≠ 0 → 0 < s.debouncer.debounceTimer.toNat →
      b = { s.debouncer with debounceTimer := s.debouncer.debounceTimer - 1 } ∧ e = none) ∧
    (k = s.debouncer.lastKey → k ≠ 0 → s.debouncer.debounceTimer.toNat = 0 →
      k ∈ s.cfg.whitelist → s.cfg.holdThreshold.toNat ≤ min (s.debouncer.repeatCount.toNat + 1) 255 →
      b = { s.debouncer with repeatCount := s.cfg.repeatReload } ∧ e = some { kind := .repeatEv, key := k }) ∧
    (k = s.debouncer.lastKey → k ≠ 0 → s.debouncer.debounceTimer.toNat = 0 →
      (k ∉ s.cfg.whitelist ∨ min (s.debouncer.repeatCount.toNat + 1) 255 < s.cfg.holdThreshold.toNat) →
      b = { s.debouncer with
        repeatCount := BitVec.ofNat 8 (min (s.debouncer.repeatCount.toNat + 1) 255) } ∧ e = none) ∧
    (k = s.debouncer.lastKey → k = 0 →
      b = { s.debouncer with debounceTimer := BitVec.ofNat 4 (s.debouncer.debounceTimer.toNat - 1) } ∧ e = none)

/-- 43_key_debouncer.md R201 (a), (b): a non-zero key held for any number of polls is dispatched once, on the first
of them; a key outside the whitelist emits nothing more. -/
def Obligations.HeldKeyIsPressedOnce : Prop :=
  ∀ (s : State) (k : Byte) (n : Nat), k ≠ 0 → k ≠ s.debouncer.lastKey →
    (eventsAlong (List.replicate (n + 1) (.dbstep k)) s).filter (fun e => decide (e.kind = .press)) =
      [{ kind := .press, key := k }] ∧
    (k ∉ s.cfg.whitelist →
      eventsAlong (List.replicate (n + 1) (.dbstep k)) s = [{ kind := .press, key := k }])

/-- 43_key_debouncer.md R198: the first repeat event of a held whitelisted key comes on the (W + H)-th `DBSTEP`
after the press poll, and later ones every H - RL polls. -/
def Obligations.HeldWhitelistedKeyRepeatsOnItsCadence : Prop :=
  ∀ (s : State) (k : Byte) (m : Nat), s.cfg.legal = true → k ∈ s.cfg.whitelist → k ≠ s.debouncer.lastKey →
    let polls := s.cfg.debounceWindow.toNat + s.cfg.holdThreshold.toNat +
      m * (s.cfg.holdThreshold.toNat - s.cfg.repeatReload.toNat)
    eventsAlong (List.replicate polls (.dbstep k)) s =
      { kind := .press, key := k } :: List.replicate m { kind := .repeatEv, key := k } ∧
    eventsAlong (List.replicate (polls + 1) (.dbstep k)) s =
      { kind := .press, key := k } :: List.replicate (m + 1) { kind := .repeatEv, key := k }

/-- 43_key_debouncer.md R205: `POLL` is `KEYRD` and then `DBSTEP` of the key it returned, with that key as its result
and the event of the `DBSTEP` as its event. -/
def Obligations.PollIsKeyReadThenDebouncerStep : Prop :=
  ∀ s : State, ∃ (k : Byte) (t u : State),
    exec .keyrd s = .next t ∧ t.result = .key k ∧ exec (.dbstep k) t = .next u ∧
    exec .poll s = .next { u with result := .key k }

/-- 43_key_debouncer.md R206: a `POLL` that finds a tracked invalid frame resets the decoder and releases a latched
key in the same step, with no event. -/
def Obligations.PollOnAMalformedFrameReleasesTheKey : Prop :=
  ∀ s : State, s.decoder.frameReady = true → ¬ValidFrameFor s.cfg.deviceId s.decoder.accumulator →
    s.debouncer.lastKey ≠ 0 →
    exec .poll s = .next
      { s with
        decoder := clearedDecoder s.decoder.pulseInProgress
        debouncer := { lastKey := 0, repeatCount := 0, debounceTimer := s.cfg.debounceWindow }
        result := .key 0
        event := none }

/-- 43_key_debouncer.md R193: an event is emitted only by a debouncer step, alone or inside `POLL`, and never with
key 0. -/
def Obligations.EventsComeFromTheDebouncerAndNameAKey : Prop :=
  ∀ (i : Instr) (s t : State) (e : Event), exec i s = .next t → t.event = some e →
    ((∃ k, i = .dbstep k) ∨ i = .poll) ∧ e.key ≠ 0 ∧ e.key = t.debouncer.lastKey

/-- 10_state.md R33 to R35: the debouncer's registers are written by `DBSTEP`, by `POLL` and by reset, and by nothing
else; 10_state.md R36 to R39: the PWM registers only by `PTICK`, `SETDUTY`, `SETEN` and reset. -/
def Obligations.EnginesAreWrittenOnlyByTheirOperations : Prop :=
  ∀ (i : Instr) (s t : State), exec i s = .next t →
    (t.debouncer ≠ s.debouncer → (∃ k, i = .dbstep k) ∨ i = .poll ∨ i = .reset) ∧
    (t.pwm.counter ≠ s.pwm.counter → i = .ptick ∨ i = .reset) ∧
    (t.pwm.active ≠ s.pwm.active → i = .ptick ∨ i = .reset) ∧
    (t.pwm.dutyLevel ≠ s.pwm.dutyLevel → (∃ v, i = .setduty v) ∨ i = .reset) ∧
    (t.pwm.enabled ≠ s.pwm.enabled → (∃ ch en, i = .seten ch en) ∨ i = .reset)

/-! ## SoftwarePwmEngine -/

/-- 44_pwm_engine.md R216, R217: a tick advances the counter modulo 10 and sets every channel's output from the
advanced counter; nothing else changes. -/
def Obligations.PwmTickUpdatesEveryChannel : Prop :=
  ∀ s : State, ∃ p : PwmState,
    exec .ptick s = .next { s with pwm := p, result := .none, event := none } ∧
    p.counter.toNat = (s.pwm.counter.toNat + 1) % 10 ∧ p.dutyLevel = s.pwm.dutyLevel ∧
    p.enabled = s.pwm.enabled ∧ p.active.length = s.cfg.nChannels ∧
    ∀ i < s.cfg.nChannels,
      (activeAt p i = true ↔ enabledAt s.pwm i = true ∧ p.counter.toNat < s.pwm.dutyLevel.toNat) ∧
      pin { s with pwm := p } i = !(activeAt p i)

/-- 44_pwm_engine.md R218: in any ten consecutive ticks the counter takes each value 0..9 exactly once, and an enabled
channel is active in exactly `dutyLevel` of them. -/
def Obligations.TenTicksAreOneDutyCycle : Prop :=
  ∀ s : State, PwmInv s.pwm →
    (∀ v < 10, (List.range 10).countP (fun n => decide (counterAfterTicks s (n + 1) = some v)) = 1) ∧
    ∀ i < s.cfg.nChannels, enabledAt s.pwm i = true →
      (List.range 10).countP (fun n => activeAfterTicks s i (n + 1)) = s.pwm.dutyLevel.toNat

/-- 44_pwm_engine.md R219: at duty 0 every output is off at every tick, at duty 10 every enabled output is on at every
tick, at duty 4 an enabled output is on exactly at counter 0 to 3, and a disabled channel is off at every duty. -/
def Obligations.BoundaryDutiesAreExact : Prop :=
  ∀ (s t : State) (i : Nat), PwmInv s.pwm → i < s.cfg.nChannels → exec .ptick s = .next t →
    (s.pwm.dutyLevel = 0 → activeAt t.pwm i = false) ∧
    (s.pwm.dutyLevel = 10 → activeAt t.pwm i = enabledAt s.pwm i) ∧
    (s.pwm.dutyLevel = 4 → enabledAt s.pwm i = true →
      (activeAt t.pwm i = true ↔ t.pwm.counter.toNat ∈ [0, 1, 2, 3])) ∧
    (enabledAt s.pwm i = false → activeAt t.pwm i = false)

/-- 44_pwm_engine.md R220, R221: `SETDUTY` stores its signed operand clamped to 0..10 and writes nothing else. -/
def Obligations.SetDutyStoresTheClampedOperand : Prop :=
  ∀ (s : State) (v : Byte), ∃ d : BitVec 4,
    exec (.setduty v) s =
      .next { s with pwm := { s.pwm with dutyLevel := d }, result := .none, event := none } ∧
    (d.toNat : Int) = max 0 (min 10 v.toInt)

/-- 44_pwm_engine.md R224, R225: `SETEN` writes the one flag its index names, and nothing where it names none. -/
def Obligations.SetEnableWritesOneFlag : Prop :=
  ∀ (s : State) (ch : Byte) (en : Bool), ChannelForm s.cfg s.pwm →
    ∃ bank : List Bool,
      exec (.seten ch en) s =
        .next { s with pwm := { s.pwm with enabled := bank }, result := .none, event := none } ∧
      bank.length = s.cfg.nChannels ∧
      (∀ i < s.cfg.nChannels, bank[i]? = if i = ch.toNat then some en else s.pwm.enabled[i]?) ∧
      (s.cfg.nChannels ≤ ch.toNat → bank = s.pwm.enabled)

/-! ## Whole-machine results -/

/-- 10_state.md R44 to R46, R48, and the ranges of R49: the invariants hold after boot with a legal configuration. -/
def Obligations.InvariantsHoldAfterBoot : Prop :=
  ∀ (c : Config) (ops : List OpPort), c.legal = true → BlockInv (State.boot c ops)

/-- 10_state.md section 6: the invariants R44 to R46, R48 and the ranges of R49 are preserved by every step. -/
def Obligations.EveryStepKeepsTheInvariants : Prop :=
  ∀ s t : State, BlockInv s → step s = .next t → BlockInv t

/-- The two flag banks keep one flag for every channel at every step, and have it after boot: the form of the
model's own representation (notes/assumptions/10.md). -/
def Obligations.EveryStepKeepsTheChannelForm : Prop :=
  (∀ (c : Config) (ops : List OpPort), ChannelForm c (State.boot c ops).pwm) ∧
  ∀ s t : State, ChannelForm s.cfg s.pwm → step s = .next t → ChannelForm t.cfg t.pwm

/-- 20_memory.md R78 (a): the PWM operations commute with every decoder and debouncer operation. -/
def Obligations.PwmCommutesWithTheKeyChain : Prop :=
  ∀ (p k : Instr) (s : State), pwmOperation p = true → keyOperation k = true →
    ∃ a b c d, exec p s = .next a ∧ exec k a = .next b ∧ exec k s = .next c ∧ exec p c = .next d ∧
      SameRegisters b d ∧ b.result = c.result ∧ b.event = c.event

/-- 20_memory.md R78 (b): `DBSTEP` commutes with `RISE`, `FALL` and `WTICK`. -/
def Obligations.DebouncerStepCommutesWithInterrupts : Prop :=
  ∀ (k : Byte) (i : Instr) (s : State), ((∃ ts, i = .rise ts) ∨ (∃ ts, i = .fall ts) ∨ i = .wtick) →
    ∃ a b c d, exec (.dbstep k) s = .next a ∧ exec i a = .next b ∧ exec i s = .next c ∧
      exec (.dbstep k) c = .next d ∧ SameRegisters b d ∧ a.event = d.event ∧ b.result = c.result

/-- 60_exceptions.md R253: FrameTimeout is met exactly by a `WTICK` that finds a partial frame one tick below the
ceiling or later; it resets the decoder; and the TIMED_OUT result is shown exactly by the operation that meets it. -/
def Obligations.TimedOutIsShownExactlyByFrameTimeout : Prop :=
  ∀ (i : Instr) (s t : State), BlockInv s → exec i s = .next t →
    (errorLabel i s = some .frameTimeout ↔
      i = .wtick ∧ s.decoder.phase ≠ .idle ∧ s.decoder.bitCount.toNat < 32 ∧
        s.cfg.wdtCeiling.toNat ≤ s.decoder.watchdogTicks.toNat + 1) ∧
    (errorLabel i s = some .frameTimeout → t.decoder = clearedDecoder s.decoder.pulseInProgress) ∧
    (t.result = .timedOut ↔ errorLabel i s = some .frameTimeout)

/-- 60_exceptions.md R251, R252, R255: NoSignal, SpuriousPulse and RepeatWithoutActiveFrame change no decoder
register but the pulse flag that a `FALL` clears, and no PWM register; no debouncer register but by the `DBSTEP 0`
inside a `POLL`, which leaves no key latched (43_key_debouncer.md R205); a key read answers 0 and nothing is
dispatched. -/
def Obligations.HarmlessConditionsChangeNothing : Prop :=
  ∀ (i : Instr) (s t : State), BlockInv s → exec i s = .next t →
    errorLabel i s = some .noSignal ∨ errorLabel i s = some .spuriousPulse ∨
      errorLabel i s = some .repeatWithoutActiveFrame →
    t.decoder = { s.decoder with pulseInProgress := t.decoder.pulseInProgress } ∧
    ((∀ ts, i ≠ .fall ts) → t.decoder = s.decoder) ∧ t.pwm = s.pwm ∧
    (i ≠ .poll → t.debouncer = s.debouncer) ∧
    (i = .poll → t.debouncer.lastKey = 0) ∧
    (i = .keyrd ∨ i = .poll → t.result = .key 0) ∧ t.event = none

/-- 60_exceptions.md R254: ChecksumOrAddressMismatch is met exactly by a key read, alone or inside `POLL`, that finds a
tracked invalid frame; it resets the decoder and is answered as key 0, and `POLL` leaves no key latched. -/
def Obligations.MismatchIsAnsweredAsNoKey : Prop :=
  ∀ (i : Instr) (s : State),
    (errorLabel i s = some .checksumOrAddressMismatch ↔
      (i = .keyrd ∨ i = .poll) ∧ s.decoder.frameReady = true ∧
        ¬ValidFrameFor s.cfg.deviceId s.decoder.accumulator) ∧
    (errorLabel i s = some .checksumOrAddressMismatch →
      ∃ t, exec i s = .next t ∧ t.decoder = clearedDecoder s.decoder.pulseInProgress ∧ t.result = .key 0 ∧
        (i = .poll → t.debouncer.lastKey = 0) ∧ (i = .keyrd → t.debouncer = s.debouncer) ∧ t.pwm = s.pwm)
end

