-- ==== Sys2Proof/Laws/Flags.lean ====
section
/-! SUPPORT. What each one-bit condition of Machine/Flags.lean says, as a proposition. -/

namespace Sys2Proof.Machine

theorem frameFull_iff (d : DecoderState) : frameFull d = true ↔ d.bitCount.toNat = 32 := decide_eq_true_iff

theorem acceptsBit_iff (d : DecoderState) :
    acceptsBit d = true ↔ d.phase ≠ .idle ∧ d.bitCount.toNat < 32 := by
  unfold acceptsBit
  rw [Bool.and_eq_true, decide_eq_true_iff, decide_eq_true_iff]
  rfl

theorem ceilingReached_iff (c : Config) (d : DecoderState) :
    ceilingReached c d = true ↔ c.wdtCeiling.toNat ≤ d.watchdogTicks.toNat + 1 := decide_eq_true_iff

theorem expired_iff (c : Config) (d : DecoderState) :
    expired c d = true ↔ c.wdtCeiling.toNat ≤ d.watchdogTicks.toNat := decide_eq_true_iff

theorem whitelisted_iff (c : Config) (k : Byte) : whitelisted c k = true ↔ k ∈ c.whitelist :=
  List.contains_iff_mem

theorem repeatFires_iff (c : Config) (k : Byte) (n : BitVec 8) :
    repeatFires c k n = true ↔ k ∈ c.whitelist ∧ c.holdThreshold.toNat ≤ n.toNat := by
  unfold repeatFires
  rw [Bool.and_eq_true, decide_eq_true_iff, whitelisted_iff]

theorem channelOn_iff (enabled : Bool) (counter duty : BitVec 4) :
    channelOn enabled counter duty = true ↔ enabled = true ∧ counter.toNat < duty.toNat := by
  unfold channelOn
  rw [Bool.and_eq_true, decide_eq_true_iff]

end Sys2Proof.Machine
end

