-- ==== Sys2Proof/Laws/State.lean ====
section
/-! SUPPORT. One lemma per field per update, true by `rfl`, so that no later proof unfolds a record
update. -/

namespace Sys2Proof.Machine

/-! Decoder updates. -/

@[simp] theorem risingEdge_phase (d : DecoderState) : (risingEdge d).phase = d.phase := rfl
@[simp] theorem risingEdge_bitCount (d : DecoderState) : (risingEdge d).bitCount = d.bitCount := rfl
@[simp] theorem risingEdge_accumulator (d : DecoderState) : (risingEdge d).accumulator = d.accumulator := rfl
@[simp] theorem risingEdge_watchdogTicks (d : DecoderState) : (risingEdge d).watchdogTicks = d.watchdogTicks := rfl
@[simp] theorem risingEdge_pulseInProgress (d : DecoderState) : (risingEdge d).pulseInProgress = true := rfl
@[simp] theorem risingEdge_frameReady (d : DecoderState) : (risingEdge d).frameReady = d.frameReady := rfl
@[simp] theorem risingEdge_repeatCounter (d : DecoderState) : (risingEdge d).repeatCounter = d.repeatCounter := rfl

@[simp] theorem acceptLeader_phase (d : DecoderState) : (acceptLeader d).phase = .leaderSeen := rfl
@[simp] theorem acceptLeader_bitCount (d : DecoderState) : (acceptLeader d).bitCount = 0 := rfl
@[simp] theorem acceptLeader_accumulator (d : DecoderState) : (acceptLeader d).accumulator = d.accumulator := rfl
@[simp] theorem acceptLeader_watchdogTicks (d : DecoderState) : (acceptLeader d).watchdogTicks = 0 := rfl
@[simp] theorem acceptLeader_pulseInProgress (d : DecoderState) : (acceptLeader d).pulseInProgress = d.pulseInProgress := rfl
@[simp] theorem acceptLeader_frameReady (d : DecoderState) : (acceptLeader d).frameReady = false := rfl
@[simp] theorem acceptLeader_repeatCounter (d : DecoderState) : (acceptLeader d).repeatCounter = 0 := rfl

@[simp] theorem acceptBit_phase (b : Bool) (d : DecoderState) : (acceptBit b d).phase = .receiving := rfl
@[simp] theorem acceptBit_bitCount (b : Bool) (d : DecoderState) : (acceptBit b d).bitCount = d.bitCount + 1 := rfl
@[simp] theorem acceptBit_accumulator (b : Bool) (d : DecoderState) : (acceptBit b d).accumulator = (d.accumulator <<< 1) ||| (BitVec.ofBool b).setWidth 32 := rfl
@[simp] theorem acceptBit_watchdogTicks (b : Bool) (d : DecoderState) : (acceptBit b d).watchdogTicks = d.watchdogTicks := rfl
@[simp] theorem acceptBit_pulseInProgress (b : Bool) (d : DecoderState) : (acceptBit b d).pulseInProgress = d.pulseInProgress := rfl
@[simp] theorem acceptBit_frameReady (b : Bool) (d : DecoderState) : (acceptBit b d).frameReady = (d.frameReady || decide (d.bitCount.toNat + 1 = frameBits)) := rfl
@[simp] theorem acceptBit_repeatCounter (b : Bool) (d : DecoderState) : (acceptBit b d).repeatCounter = d.repeatCounter := rfl

@[simp] theorem acceptRepeat_phase (c : Config) (d : DecoderState) : (acceptRepeat c d).phase = d.phase := rfl
@[simp] theorem acceptRepeat_bitCount (c : Config) (d : DecoderState) : (acceptRepeat c d).bitCount = d.bitCount := rfl
@[simp] theorem acceptRepeat_accumulator (c : Config) (d : DecoderState) : (acceptRepeat c d).accumulator = d.accumulator := rfl
@[simp] theorem acceptRepeat_watchdogTicks (c : Config) (d : DecoderState) : (acceptRepeat c d).watchdogTicks = 0 := rfl
@[simp] theorem acceptRepeat_pulseInProgress (c : Config) (d : DecoderState) : (acceptRepeat c d).pulseInProgress = d.pulseInProgress := rfl
@[simp] theorem acceptRepeat_frameReady (c : Config) (d : DecoderState) : (acceptRepeat c d).frameReady = d.frameReady := rfl
@[simp] theorem acceptRepeat_repeatCounter (c : Config) (d : DecoderState) : (acceptRepeat c d).repeatCounter = saturatingInc d.repeatCounter (repeatCeiling c) := rfl

@[simp] theorem tickTracked_phase (c : Config) (d : DecoderState) : (tickTracked c d).phase = d.phase := rfl
@[simp] theorem tickTracked_bitCount (c : Config) (d : DecoderState) : (tickTracked c d).bitCount = d.bitCount := rfl
@[simp] theorem tickTracked_accumulator (c : Config) (d : DecoderState) : (tickTracked c d).accumulator = d.accumulator := rfl
@[simp] theorem tickTracked_watchdogTicks (c : Config) (d : DecoderState) : (tickTracked c d).watchdogTicks = saturatingInc d.watchdogTicks c.wdtCeiling := rfl
@[simp] theorem tickTracked_pulseInProgress (c : Config) (d : DecoderState) : (tickTracked c d).pulseInProgress = d.pulseInProgress := rfl
@[simp] theorem tickTracked_frameReady (c : Config) (d : DecoderState) : (tickTracked c d).frameReady = true := rfl
@[simp] theorem tickTracked_repeatCounter (c : Config) (d : DecoderState) : (tickTracked c d).repeatCounter = d.repeatCounter := rfl

@[simp] theorem tickPartial_phase (d : DecoderState) : (tickPartial d).phase = d.phase := rfl
@[simp] theorem tickPartial_bitCount (d : DecoderState) : (tickPartial d).bitCount = d.bitCount := rfl
@[simp] theorem tickPartial_accumulator (d : DecoderState) : (tickPartial d).accumulator = d.accumulator := rfl
@[simp] theorem tickPartial_watchdogTicks (d : DecoderState) : (tickPartial d).watchdogTicks = d.watchdogTicks + 1 := rfl
@[simp] theorem tickPartial_pulseInProgress (d : DecoderState) : (tickPartial d).pulseInProgress = d.pulseInProgress := rfl
@[simp] theorem tickPartial_frameReady (d : DecoderState) : (tickPartial d).frameReady = d.frameReady := rfl
@[simp] theorem tickPartial_repeatCounter (d : DecoderState) : (tickPartial d).repeatCounter = d.repeatCounter := rfl

@[simp] theorem decoderReset_phase (d : DecoderState) : (decoderReset d).phase = .idle := rfl
@[simp] theorem decoderReset_bitCount (d : DecoderState) : (decoderReset d).bitCount = 0 := rfl
@[simp] theorem decoderReset_accumulator (d : DecoderState) : (decoderReset d).accumulator = 0 := rfl
@[simp] theorem decoderReset_watchdogTicks (d : DecoderState) : (decoderReset d).watchdogTicks = 0 := rfl
@[simp] theorem decoderReset_pulseInProgress (d : DecoderState) : (decoderReset d).pulseInProgress = d.pulseInProgress := rfl
@[simp] theorem decoderReset_frameReady (d : DecoderState) : (decoderReset d).frameReady = false := rfl
@[simp] theorem decoderReset_repeatCounter (d : DecoderState) : (decoderReset d).repeatCounter = 0 := rfl

/-! Debouncer updates. -/

@[simp] theorem newKey_lastKey (c : Config) (k : Byte) : (newKey c k).lastKey = k := rfl
@[simp] theorem newKey_repeatCount (c : Config) (k : Byte) : (newKey c k).repeatCount = 0 := rfl
@[simp] theorem newKey_debounceTimer (c : Config) (k : Byte) : (newKey c k).debounceTimer = c.debounceWindow := rfl

@[simp] theorem settle_lastKey (b : DebounceState) : (settle b).lastKey = b.lastKey := rfl
@[simp] theorem settle_repeatCount (b : DebounceState) : (settle b).repeatCount = b.repeatCount := rfl
@[simp] theorem settle_debounceTimer (b : DebounceState) : (settle b).debounceTimer = stoppingDec b.debounceTimer := rfl

/-! PWM updates. -/

@[simp] theorem pwmTick_counter (c : Config) (p : PwmState) : (pwmTick c p).counter = advanceCounter p.counter := rfl
@[simp] theorem pwmTick_dutyLevel (c : Config) (p : PwmState) : (pwmTick c p).dutyLevel = p.dutyLevel := rfl
@[simp] theorem pwmTick_enabled (c : Config) (p : PwmState) : (pwmTick c p).enabled = p.enabled := rfl
@[simp] theorem pwmTick_active (c : Config) (p : PwmState) : (pwmTick c p).active = (List.range c.nChannels).map fun i =>
      channelOn (enabledAt p i) (advanceCounter p.counter) p.dutyLevel := rfl

/-! State updates and the booted state. -/

@[simp] theorem taken_cfg (s : State) : (taken s).cfg = s.cfg := rfl
@[simp] theorem taken_decoder (s : State) : (taken s).decoder = s.decoder := rfl
@[simp] theorem taken_debouncer (s : State) : (taken s).debouncer = s.debouncer := rfl
@[simp] theorem taken_pwm (s : State) : (taken s).pwm = s.pwm := rfl
@[simp] theorem taken_opPort (s : State) : (taken s).opPort = s.opPort.tail := rfl
@[simp] theorem taken_result (s : State) : (taken s).result = s.result := rfl
@[simp] theorem taken_event (s : State) : (taken s).event = s.event := rfl

@[simp] theorem presentNext_cfg (w : Word) (s : State) : (presentNext w s).cfg = s.cfg := rfl
@[simp] theorem presentNext_decoder (w : Word) (s : State) : (presentNext w s).decoder = s.decoder := rfl
@[simp] theorem presentNext_debouncer (w : Word) (s : State) : (presentNext w s).debouncer = s.debouncer := rfl
@[simp] theorem presentNext_pwm (w : Word) (s : State) : (presentNext w s).pwm = s.pwm := rfl
@[simp] theorem presentNext_opPort (w : Word) (s : State) : (presentNext w s).opPort = { opValid := true, opWord := w } :: s.opPort.tail := rfl
@[simp] theorem presentNext_result (w : Word) (s : State) : (presentNext w s).result = s.result := rfl
@[simp] theorem presentNext_event (w : Word) (s : State) : (presentNext w s).event = s.event := rfl

@[simp] theorem State.boot_cfg (c : Config) (ops : List OpPort) : (State.boot c ops).cfg = c := rfl
@[simp] theorem State.boot_decoder (c : Config) (ops : List OpPort) : (State.boot c ops).decoder = DecoderState.reset := rfl
@[simp] theorem State.boot_debouncer (c : Config) (ops : List OpPort) : (State.boot c ops).debouncer = DebounceState.reset := rfl
@[simp] theorem State.boot_pwm (c : Config) (ops : List OpPort) : (State.boot c ops).pwm = PwmState.reset c.nChannels := rfl
@[simp] theorem State.boot_opPort (c : Config) (ops : List OpPort) : (State.boot c ops).opPort = ops := rfl
@[simp] theorem State.boot_result (c : Config) (ops : List OpPort) : (State.boot c ops).result = .none := rfl
@[simp] theorem State.boot_event (c : Config) (ops : List OpPort) : (State.boot c ops).event = none := rfl

/-! What each arm of exec answers, over the shared operations. -/

theorem exec_rise (ts : Micros) (s : State) :
    exec (.rise ts) s = answer .none none { s with decoder := risingEdge s.decoder } := rfl

theorem exec_fall (ts : Micros) (s : State) :
    exec (.fall ts) s = answer .none none { s with decoder := fallingEdge s.cfg ts s.decoder } := rfl

theorem exec_wtick (s : State) :
    exec .wtick s =
      answer (watchdogTick s.cfg s.decoder).2 none { s with decoder := (watchdogTick s.cfg s.decoder).1 } := rfl

theorem exec_ptick (s : State) :
    exec .ptick s = answer .none none { s with pwm := pwmTick s.cfg s.pwm } := rfl

theorem exec_keyrd (s : State) :
    exec .keyrd s =
      answer (.key (readKey s.cfg s.decoder).1) none { s with decoder := (readKey s.cfg s.decoder).2 } := rfl

theorem exec_dbstep (k : Byte) (s : State) :
    exec (.dbstep k) s =
      answer .none (debounce s.cfg k s.debouncer).2
        { s with debouncer := (debounce s.cfg k s.debouncer).1 } := rfl

theorem exec_poll (s : State) :
    exec .poll s =
      answer (.key (readKey s.cfg s.decoder).1)
        (debounce s.cfg (readKey s.cfg s.decoder).1 s.debouncer).2
        { s with
          decoder := (readKey s.cfg s.decoder).2
          debouncer := (debounce s.cfg (readKey s.cfg s.decoder).1 s.debouncer).1 } := rfl

theorem exec_setduty (v : Byte) (s : State) :
    exec (.setduty v) s =
      answer .none none { s with pwm := { s.pwm with dutyLevel := clampDuty (dutyInteger v) } } := rfl

theorem exec_seten (ch : Byte) (en : Bool) (s : State) :
    exec (.seten ch en) s = answer .none none { s with pwm := setChannel s.cfg ch en s.pwm } := rfl

theorem exec_reset (s : State) :
    exec .reset s =
      answer .none none
        { s with
          decoder := { decoderReset s.decoder with pulseInProgress := false }
          debouncer := { lastKey := 0, repeatCount := 0, debounceTimer := 0 }
          pwm := { counter := 0, dutyLevel := 0, enabled := channelsOff s.cfg, active := channelsOff s.cfg } } :=
  rfl

end Sys2Proof.Machine
end

