-- ==== Sys2Proof/Laws/Ops.lean ====
section
/-! SUPPORT. One lemma per shared operation that says everything it can do; later proofs cite these instead of
unfolding the operations. -/

namespace Sys2Proof.Machine

/-! Counting. -/

theorem answer_eq_next_iff {r : Result} {e : Option Event} {s t : State} :
    answer r e s = .next t ↔ t = { s with result := r, event := e } := by
  simp [answer, eq_comm]

theorem saturatingInc_toNat {n : Nat} (x ceiling : BitVec n) :
    (saturatingInc x ceiling).toNat = min (x.toNat + 1) ceiling.toNat := by
  have h := ceiling.isLt
  simp only [saturatingInc, BitVec.toNat_ofNat]
  exact Nat.mod_eq_of_lt (by omega)

theorem stoppingDec_toNat {n : Nat} (x : BitVec n) : (stoppingDec x).toNat = x.toNat - 1 := by
  unfold stoppingDec
  split
  · simp_all
  · rename_i h
    have h0 : x.toNat ≠ 0 := fun h0 => h (BitVec.eq_of_toNat_eq (by simpa using h0))
    have hl := x.isLt
    have hn : 1 < 2 ^ n := by omega
    have h1 : BitVec.toNat (1 : BitVec n) = 1 := by
      rw [BitVec.ofNat_eq_ofNat, BitVec.toNat_ofNat, Nat.mod_eq_of_lt hn]
    have hle : (1 : BitVec n) ≤ x := by
      rw [BitVec.le_def, h1]
      omega
    rw [BitVec.toNat_sub_of_le hle, h1]

theorem repeatCeiling_of_full_width {c : Config} (h : 8 ≤ c.repeatCntWidth) : repeatCeiling c = 255 := by
  simp [repeatCeiling, h]

theorem repeatCeiling_toNat (c : Config) :
    (repeatCeiling c).toNat = min 255 (2 ^ c.repeatCntWidth - 1) := by
  unfold repeatCeiling
  split
  · rename_i h
    have : 2 ^ 8 ≤ 2 ^ c.repeatCntWidth := Nat.pow_le_pow_right (by omega) h
    simp only [BitVec.ofNat_eq_ofNat, BitVec.toNat_ofNat, Nat.reducePow, Nat.reduceMod] at *
    omega
  · rename_i h
    have : 2 ^ c.repeatCntWidth ≤ 2 ^ 7 := Nat.pow_le_pow_right (by omega) (by omega)
    simp only [BitVec.toNat_ofNat, Nat.reducePow] at *
    omega

theorem clampDuty_toNat (x : Int) : ((clampDuty x).toNat : Int) = max 0 (min 10 x) := by
  unfold clampDuty
  split
  · simp only [BitVec.ofNat_eq_ofNat, BitVec.toNat_ofNat]
    omega
  · split
    · simp only [BitVec.ofNat_eq_ofNat, BitVec.toNat_ofNat]
      omega
    · rw [BitVec.toNat_ofInt]
      omega

/-! The classifier. -/

/-- The closed interval a band holds, whatever `BAND_CLOSED` is. -/
theorem inBand_iff (c : Config) (b : Band) (d : Micros) :
    inBand c b d = true ↔
      b.lo.toNat + c.bandMargin ≤ d.toNat ∧ d.toNat + c.bandMargin ≤ b.hi.toNat := by
  unfold inBand Config.bandMargin microseconds
  split <;> simp_all

/-- Bands that `Config.apart` passes share no duration. -/
theorem apart_iff (c : Config) (a b : Band) :
    c.apart a b = true ↔ ∀ d, ¬(inBand c a d = true ∧ inBand c b d = true) := by
  simp only [inBand_iff, Config.apart, decide_eq_true_eq]
  constructor
  · intro h d
    omega
  · intro h
    by_contra hc
    have ha := a.hi.isLt
    have hb := b.hi.isLt
    have hd := h (BitVec.ofNat 16 (max a.lo.toNat b.lo.toNat + c.bandMargin))
    rw [BitVec.toNat_ofNat, Nat.mod_eq_of_lt (by omega)] at hd
    omega

/-! The FrameAssembler. -/

/-- Everything a classified pulse can do to the decoder (41_frame_assembler.md R150). -/
theorem assemblePulse_cases (c : Config) (p : PulseClass) (d : DecoderState) :
    (p = .leader ∧ d.phase = .idle ∧ assemblePulse c p d = acceptLeader d) ∨
    (∃ b, p = (if b then .bitOne else .bitZero) ∧ d.phase ≠ .idle ∧ d.bitCount.toNat < 32 ∧
      assemblePulse c p d = acceptBit b d) ∨
    (p = .repeatCode ∧ d.phase = .receiving ∧ assemblePulse c p d = acceptRepeat c d) ∨
    assemblePulse c p d = d := by
  cases p with
  | leader => by_cases h : d.phase = .idle <;> simp [assemblePulse, h]
  | bitZero =>
    by_cases h : acceptsBit d = true
    · have h' := (acceptsBit_iff d).1 h
      exact .inr (.inl ⟨false, rfl, h'.1, h'.2, by simp [assemblePulse, h]⟩)
    · exact .inr (.inr (.inr (by simp [assemblePulse, h])))
  | bitOne =>
    by_cases h : acceptsBit d = true
    · have h' := (acceptsBit_iff d).1 h
      exact .inr (.inl ⟨true, rfl, h'.1, h'.2, by simp [assemblePulse, h]⟩)
    · exact .inr (.inr (.inr (by simp [assemblePulse, h])))
  | repeatCode => by_cases h : d.phase = .receiving <;> simp [assemblePulse, h]
  | invalid => simp [assemblePulse]

theorem fallingEdge_of_pulse (c : Config) (ts : Micros) {d : DecoderState} (h : d.pulseInProgress = true) :
    fallingEdge c ts d = { assemblePulse c (classify c ts) d with pulseInProgress := false } := by
  simp [fallingEdge, h]

theorem fallingEdge_of_no_pulse (c : Config) (ts : Micros) {d : DecoderState} (h : d.pulseInProgress = false) :
    fallingEdge c ts d = d := by
  simp [fallingEdge, h]

/-- Everything a watchdog tick can do (41_frame_assembler.md R151). -/
theorem watchdogTick_cases (c : Config) (d : DecoderState) :
    (d.phase = .idle ∧ watchdogTick c d = (d, .none)) ∨
    (d.phase ≠ .idle ∧ d.bitCount.toNat = 32 ∧ watchdogTick c d = (tickTracked c d, .none)) ∨
    (d.phase ≠ .idle ∧ d.bitCount.toNat ≠ 32 ∧ c.wdtCeiling.toNat ≤ d.watchdogTicks.toNat + 1 ∧
      watchdogTick c d = (decoderReset d, .timedOut)) ∨
    (d.phase ≠ .idle ∧ d.bitCount.toNat ≠ 32 ∧ d.watchdogTicks.toNat + 1 < c.wdtCeiling.toNat ∧
      watchdogTick c d = (tickPartial d, .none)) := by
  by_cases h1 : d.phase = .idle
  · exact .inl ⟨h1, by simp [watchdogTick, h1]⟩
  · by_cases h2 : d.bitCount.toNat = 32
    · exact .inr (.inl ⟨h1, h2, by simp [watchdogTick, frameFull, frameBits, h1, h2]⟩)
    · by_cases h3 : c.wdtCeiling.toNat ≤ d.watchdogTicks.toNat + 1
      · exact .inr (.inr (.inl ⟨h1, h2, h3, by
          simp [watchdogTick, frameFull, frameBits, ceilingReached, h1, h2, h3]⟩))
      · exact .inr (.inr (.inr ⟨h1, h2, by omega, by
          simp [watchdogTick, frameFull, frameBits, ceilingReached, h1, h2, h3]⟩))

theorem tickPartial_watchdogTicks_toNat {c : Config} {d : DecoderState}
    (h : d.watchdogTicks.toNat + 1 < c.wdtCeiling.toNat) :
    (tickPartial d).watchdogTicks.toNat = d.watchdogTicks.toNat + 1 := by
  have := c.wdtCeiling.isLt
  simp only [tickPartial_watchdogTicks, BitVec.toNat_add, BitVec.ofNat_eq_ofNat, BitVec.toNat_ofNat]
  omega

/-! The validator. -/

theorem validate_valid (w : Word) (id : Byte) :
    (validate w id).valid = true ↔
      w.extractLsb' 24 8 = ~~~(w.extractLsb' 16 8) ∧ w.extractLsb' 24 8 = id ∧
        w.extractLsb' 8 8 = ~~~(w.extractLsb' 0 8) := by
  simp only [validate, validFrame, Bool.and_eq_true, decide_eq_true_eq, and_assoc]
  rfl

theorem validate_code {w : Word} {id : Byte} (h : (validate w id).valid = true) :
    (validate w id).code = w.extractLsb' 8 8 := by
  have h' : validFrame (frameView w) id = true := h
  unfold validate
  rw [if_pos h']
  rfl

/-- Everything a key read can do (42_frame_validator.md R174). -/
theorem readKey_cases (c : Config) (d : DecoderState) :
    (d.frameReady = false ∧ readKey c d = (0, d)) ∨
    (d.frameReady = true ∧ (validate d.accumulator c.deviceId).valid = false ∧
      readKey c d = (0, decoderReset d)) ∨
    (d.frameReady = true ∧ (validate d.accumulator c.deviceId).valid = true ∧
      c.wdtCeiling.toNat ≤ d.watchdogTicks.toNat ∧
      readKey c d = ((validate d.accumulator c.deviceId).code, decoderReset d)) ∨
    (d.frameReady = true ∧ (validate d.accumulator c.deviceId).valid = true ∧
      d.watchdogTicks.toNat < c.wdtCeiling.toNat ∧
      readKey c d = ((validate d.accumulator c.deviceId).code, d)) := by
  cases h1 : d.frameReady
  · exact .inl ⟨rfl, by simp [readKey, h1]⟩
  · cases h2 : (validate d.accumulator c.deviceId).valid
    · exact .inr (.inl ⟨rfl, rfl, by simp [readKey, h1, h2]⟩)
    · by_cases h3 : c.wdtCeiling.toNat ≤ d.watchdogTicks.toNat
      · exact .inr (.inr (.inl ⟨rfl, rfl, h3, by simp [readKey, expired, h1, h2, h3]⟩))
      · exact .inr (.inr (.inr ⟨rfl, rfl, by omega, by simp [readKey, expired, h1, h2, h3]⟩))

/-! The debouncer. -/

/-- Everything a debouncer step can do (43_key_debouncer.md R192). -/
theorem debounce_cases (c : Config) (k : Byte) (b : DebounceState) :
    (k ≠ b.lastKey ∧ debounce c k b = (newKey c k, pressEvent k)) ∨
    (k = b.lastKey ∧ k ≠ 0 ∧ 0 < b.debounceTimer.toNat ∧ debounce c k b = (settle b, none)) ∨
    (k = b.lastKey ∧ k ≠ 0 ∧ b.debounceTimer.toNat = 0 ∧ debounce c k b = hold c k b) ∨
    (k = b.lastKey ∧ k = 0 ∧ debounce c k b = (settle b, none)) := by
  unfold debounce
  by_cases h1 : k = b.lastKey
  · rw [if_neg (not_not_intro h1)]
    by_cases h2 : k = 0
    · exact .inr (.inr (.inr ⟨h1, h2, by rw [if_neg (not_not_intro h2)]⟩))
    · rw [if_pos h2]
      by_cases h3 : 0 < b.debounceTimer.toNat
      · exact .inr (.inl ⟨h1, h2, h3, by rw [if_pos h3]⟩)
      · exact .inr (.inr (.inl ⟨h1, h2, by omega, by rw [if_neg h3]⟩))
  · exact .inl ⟨h1, by rw [if_pos h1]⟩

/-- Everything case HOLD can do (43_key_debouncer.md R197, R198, R200). -/
theorem hold_cases (c : Config) (k : Byte) (b : DebounceState) :
    (k ∈ c.whitelist ∧ c.holdThreshold.toNat ≤ min (b.repeatCount.toNat + 1) 255 ∧
      hold c k b = ({ b with repeatCount := c.repeatReload }, some { kind := .repeatEv, key := k })) ∨
    (¬(k ∈ c.whitelist ∧ c.holdThreshold.toNat ≤ min (b.repeatCount.toNat + 1) 255) ∧
      hold c k b = ({ b with repeatCount := saturatingInc b.repeatCount 255 }, none)) := by
  have hs : (saturatingInc b.repeatCount 255).toNat = min (b.repeatCount.toNat + 1) 255 := by
    rw [saturatingInc_toNat]
    rfl
  have hr : repeatFires c k (saturatingInc b.repeatCount 255) = true ↔
      k ∈ c.whitelist ∧ c.holdThreshold.toNat ≤ min (b.repeatCount.toNat + 1) 255 := by
    rw [repeatFires_iff, hs]
  by_cases h : repeatFires c k (saturatingInc b.repeatCount 255) = true
  · exact .inl ⟨(hr.1 h).1, (hr.1 h).2, by unfold hold; rw [if_pos h]⟩
  · exact .inr ⟨fun h' => h (hr.2 h'), by unfold hold; rw [if_neg h]⟩

/-! The PWM engine. -/

theorem advanceCounter_toNat (n : BitVec 4) : (advanceCounter n).toNat = (n.toNat + 1) % 10 := by
  simp only [advanceCounter, pwmSteps, BitVec.toNat_ofNat]
  omega

/-- The output of a channel right after a tick (44_pwm_engine.md R216). -/
theorem activeAt_pwmTick (c : Config) (p : PwmState) {i : Nat} (h : i < c.nChannels) :
    activeAt (pwmTick c p) i = channelOn (enabledAt p i) (advanceCounter p.counter) p.dutyLevel := by
  simp [activeAt, h]

/-- The enable flags after `SETEN` of a channel that exists (44_pwm_engine.md R224). -/
theorem enabledAt_setChannel (c : Config) (ch : Byte) (en : Bool) (p : PwmState) (i : Nat)
    (hc : ch.toNat < c.nChannels) (hl : p.enabled.length = c.nChannels) :
    enabledAt (setChannel c ch en p) i = if i = ch.toNat then en else enabledAt p i := by
  simp only [setChannel, channelIndex, hc, if_true, enabledAt, List.getD_eq_getElem?_getD, List.getElem?_set]
  by_cases h : ch.toNat = i
  · simp [← h, hl, hc]
  · simp [h, Ne.symm h]

theorem setChannel_counter (c : Config) (ch : Byte) (en : Bool) (p : PwmState) :
    (setChannel c ch en p).counter = p.counter := by
  unfold setChannel
  split <;> rfl

theorem setChannel_dutyLevel (c : Config) (ch : Byte) (en : Bool) (p : PwmState) :
    (setChannel c ch en p).dutyLevel = p.dutyLevel := by
  unfold setChannel
  split <;> rfl

theorem setChannel_active (c : Config) (ch : Byte) (en : Bool) (p : PwmState) :
    (setChannel c ch en p).active = p.active := by
  unfold setChannel
  split <;> rfl

theorem setChannel_enabled_length (c : Config) (ch : Byte) (en : Bool) (p : PwmState) :
    (setChannel c ch en p).enabled.length = p.enabled.length := by
  unfold setChannel
  split <;> simp

/-! The operation port. -/

theorem presented_cons (s : State) (p : OpPort) (rest : List OpPort) (h : s.opPort = p :: rest) :
    presented s = if p.opValid then some p.opWord else none := by
  simp [presented, h]

theorem presented_presentNext (w : Word) (s : State) : presented (presentNext w s) = some w := rfl

/-- Everything a step can do when it answers a next state (20_memory.md R63). -/
theorem step_next_cases {s t : State} (h : step s = .next t) :
    s.cfg.check = none ∧
    ((presented s = none ∧ t = { taken s with result := .none, event := none }) ∨
     ∃ w i, presented s = some w ∧ decode w = .ok i ∧ exec i (taken s) = .next t) := by
  unfold step at h
  cases hc : s.cfg.check with
  | some e => simp [hc] at h
  | none =>
    refine ⟨rfl, ?_⟩
    cases hp : presented s with
    | none =>
      simp only [hc, hp, idleStep, answer_eq_next_iff] at h
      exact .inl ⟨rfl, h⟩
    | some w =>
      simp only [hc, hp, perform] at h
      cases hd : decode w with
      | error e => cases e <;> simp [hd, refuseReserved] at h
      | ok i => exact .inr ⟨w, i, rfl, hd, by simpa [hd] using h⟩

end Sys2Proof.Machine
end

