-- ==== Sys2Proof/Laws/PerInstr.lean ====
section
/-! SUPPORT. A family of facts about every operation as syntax, one lemma per constructor: the word of an
operation has its row's fixed bits and no other bit outside the row's operand fields (30_encoding.md
R90 to R94). -/

namespace Sys2Proof.Laws.EncodedFixedBits

/-- An operation's word matches its own row of 30_encoding.md R90. -/
def Statement (i : Instr) : Prop := encode i &&& i.row.mask = i.row.matchBits

/-- A word with fixed bits `m` and operand bits `o`, seen through a mask that keeps the first and clears the
second. -/
theorem masked_or (m o k : Word) (hm : m &&& k = m) (ho : o &&& k = 0) : (m ||| o) &&& k = m := by
  rw [show (m ||| o) &&& k = (m &&& k) ||| (o &&& k) by ext i; simp [Bool.and_or_distrib_right], hm, ho]
  simp

theorem micros_clear (ts : Micros) : (ts.setWidth 32 : Word) &&& 0xFFFF0000 = 0 := by
  ext i h
  interval_cases i <;> simp

theorem byte_clear (k : Byte) : (k.setWidth 32 : Word) &&& 0xFFFFFF00 = 0 := by
  ext i h
  interval_cases i <;> simp

theorem channel_clear (ch : Byte) (en : Bool) :
    ((ch.setWidth 32 <<< 8) ||| (BitVec.ofBool en).setWidth 32 : Word) &&& 0xFFFF00FE = 0 := by
  ext i h
  interval_cases i <;> simp

theorem rise (ts : Micros) : Statement (.rise ts) := masked_or 0x10000000 _ 0xFFFF0000 (by decide) (micros_clear ts)

theorem fall (ts : Micros) : Statement (.fall ts) := masked_or 0x20000000 _ 0xFFFF0000 (by decide) (micros_clear ts)

theorem wtick : Statement .wtick := rfl

theorem ptick : Statement .ptick := rfl

theorem keyrd : Statement .keyrd := rfl

theorem dbstep (k : Byte) : Statement (.dbstep k) := masked_or 0x60000000 _ 0xFFFFFF00 (by decide) (byte_clear k)

theorem poll : Statement .poll := rfl

theorem setduty (v : Byte) : Statement (.setduty v) := masked_or 0x80000000 _ 0xFFFFFF00 (by decide) (byte_clear v)

theorem seten (ch : Byte) (en : Bool) : Statement (.seten ch en) :=
  masked_or 0x90000000 _ 0xFFFF00FE (by decide) (channel_clear ch en)

theorem reset : Statement .reset := rfl

end Sys2Proof.Laws.EncodedFixedBits
end

