-- ==== Sys2Proof/Tests/Slice0.lean ====
section
/-! SUPPORT. Tests. Words, vectors and results are those of 95_test_vectors.md (T-…), written out from the spec's tables,
or taken from the rule a comment names. The second half shows, for each statement with hypotheses, values that meet
them, for every clause. -/

namespace Sys2Proof.Tests

open Sys2Proof.Machine

/-! ## Helpers -/

/-- The state an answer leaves, if it leaves one. -/
def stateOf : Answer → Option State
  | .next s => some s
  | .fault _ => none
  | .refused _ => none

/-- The reason of a refusal, if the answer is one. -/
def refusalOf : Answer → Option Refusal
  | .next _ => none
  | .fault _ => none
  | .refused r => some r

/-- What a test looks at of the state an answer leaves. -/
def seen {α : Type} (f : State → α) (a : Answer) : Option α := (stateOf a).map f

/-- A reset block holding the decoder registers `D` of 95_test_vectors.md. -/
def at_ (d : DecoderState) : State := { State.reset with decoder := d }

/-- A tracked frame after some ticks. -/
def frameAt (w : Word) (ticks : BitVec 4) : DecoderState := ⟨.receiving, 32, w, ticks, false, true, 0⟩

/-- The parameters of T-K8: W = 3, H = 25, RL = 20, WHITELIST = {7}. -/
def keyConfig : Config := { Config.default with debounceWindow := 3, whitelist := [7] }

/-- A reset block with those parameters holding the debouncer registers `K`. -/
def keyState (b : DebounceState) : State := { State.boot keyConfig [] with debouncer := b }

/-- A block about to be presented one word. -/
def offered (w : Word) : State := State.boot Config.default [{ opValid := true, opWord := w }]

/-- The pins as an 8-bit number, channel 0 in bit 0. -/
def pinByte (s : State) : BitVec 8 := BitVec.ofNat 8 ((pins s).zipIdx.foldl (fun n x => n + if x.1 then 2 ^ x.2 else 0) 0)

/-! ## Configurations (00_scope.md R9, R10) -/

theorem test_default_configuration_is_legal : Config.default.legal = true := by decide

theorem test_all_channels_configuration_is_legal :
    { Config.default with nChannels := 256, debounceWindow := 0, wdtCeiling := 15, tsWidth := 13 }.legal = true := by
  decide

theorem test_reversed_band_is_refused :
    { Config.default with bit0Band := ⟨801, 800⟩ }.check = some .bandLimitsReversed := by decide

theorem test_overlapping_bands_are_refused :
    { Config.default with bit1Band := ⟨800, 1800⟩ }.check = some .bandsOverlap := by decide

theorem test_touching_open_bands_are_disjoint :
    { Config.default with bit1Band := ⟨800, 1800⟩, bandClosed := false }.check = none := by decide

theorem test_narrow_timestamp_is_refused :
    { Config.default with tsWidth := 12 }.check = some .timestampTooNarrow := by decide

theorem test_timestamp_without_room_is_refused :
    { Config.default with leaderBand := ⟨4200, 65535⟩ }.check = some .timestampTooNarrow := by decide

theorem test_zero_watchdog_ceiling_is_refused :
    { Config.default with wdtCeiling := 0 }.check = some .watchdogCeilingZero := by decide

theorem test_long_debounce_window_is_refused :
    { Config.default with debounceWindow := 11 }.check = some .debounceWindowTooLong := by decide

theorem test_zero_hold_threshold_is_refused :
    { Config.default with holdThreshold := 0 }.check = some .holdThresholdZero := by decide

theorem test_reload_at_threshold_is_refused :
    { Config.default with repeatReload := 25 }.check = some .reloadNotBelowThreshold := by decide

theorem test_whitelisted_zero_is_refused :
    { Config.default with whitelist := [7, 0] }.check = some .zeroKeyWhitelisted := by decide

theorem test_no_channels_is_refused :
    { Config.default with nChannels := 0 }.check = some .channelCountOutOfRange ∧
    { Config.default with nChannels := 257 }.check = some .channelCountOutOfRange := by decide

theorem test_zero_repeat_width_is_refused :
    { Config.default with repeatCntWidth := 0 }.check = some .repeatCounterWidthZero := by decide

theorem test_step_refuses_an_illegal_configuration :
    refusalOf (step (State.boot { Config.default with wdtCeiling := 0 } [])) =
      some (.illegalConfiguration .watchdogCeilingZero) := by decide

/-! ## Decoding (T-E1 to T-E21, and the reserved words of 95_test_vectors.md section 2.6) -/

theorem test_decode_edges :
    [0x10000000, 0x10000230, 0x20001194, 0x20000230, 0x20000690, 0x200008CA, 0x200003E8, 0x2000FFFF].map
      (fun w => (decode w).toOption) =
    [some (.rise 0), some (.rise 560), some (.fall 4500), some (.fall 560), some (.fall 1680), some (.fall 2250),
      some (.fall 1000), some (.fall 65535)] := by decide

theorem test_decode_keys_and_ticks :
    [0x30000000, 0x40000000, 0x50000000, 0x60000005, 0x6000009A, 0x70000000, 0xA0000000].map
      (fun w => (decode w).toOption) =
    [some .wtick, some .ptick, some .keyrd, some (.dbstep 5), some (.dbstep 0x9A), some .poll, some .reset] := by
  decide

theorem test_decode_pwm :
    [0x80000004, 0x800000FD, 0x80000080, 0x90000201, 0x90000300, 0x90000801].map (fun w => (decode w).toOption) =
    [some (.setduty 4), some (.setduty 253), some (.setduty 128), some (.seten 2 true), some (.seten 3 false),
      some (.seten 8 true)] := by decide

theorem test_decode_reserved_words :
    [0x00000000, 0xB0000000, 0xF0000000].all (fun w => decide (refusalOf (step (offered w)) = some (.reservedOpcode w))) ∧
    [0x30000001, 0x10010000, 0x60000100, 0x90000802, 0xA0000001].all
      (fun w => decide (refusalOf (step (offered w)) = some (.mustBeZero w))) := by decide

theorem test_table_word_is_decoded : decodeTableWord 32 0x90000201 = some (.seten 2 true) := by decide

theorem test_stored_word_is_performed_first :
    seen (fun s => (s.decoder.pulseInProgress, s.opPort)) (step (State.reset.withFetchWord 32 0x10000000)) =
      some (true, []) := by decide

/-- 30_encoding.md R110, R111. -/
theorem test_trace_lines :
    readLine ['T', ':', ' ', 'W', 'T', 'I', 'C', 'K', '*', '2'] = some [.wtick, .wtick] ∧
    readLine ['S', 'E', 'T', 'D', 'U', 'T', 'Y', ' ', '-', '3', ' ', ';', 'x'] = some [.setduty 253] ∧
    readLine ['S', 'E', 'T', 'E', 'N', ' ', '2', ',', ' ', '1'] = some [.seten 2 true] ∧
    readLine ['D', 'B', 'S', 'T', 'E', 'P', ' ', '0', 'x', '9', 'A'] = some [.dbstep 0x9A] ∧
    readLine ['L', 'E', 'A', 'D', 'E', 'R'] = some [.rise 0, .fall 4500] ∧ readLine [';', 'P'] = some [] ∧
    readLine ['R', 'I', 'S', 'E', ' ', '6', '5', '5', '3', '6'] = none := by decide

/-- The choices of notes/assumptions/13.md on repeat counts. -/
theorem test_trace_repeat_counts :
    readLine ['P', 'O', 'L', 'L', ' ', '*', ' ', '0', 'x', '2'] = some [.poll, .poll] ∧
    readLine ['P', 'O', 'L', 'L', '*', '0'] = some [] ∧ readLine ['M', ':'] = some [] ∧
    readLine ['B', 'I', 'T', '1', '*', '2', '*', '3'] = none := by decide

/-- P1 of 95_test_vectors.md: the 66 words of the frame begin `L Z` and end `Z O`. -/
theorem test_frame_pulses :
    (framePulses 0x00FF9A65).length = 66 ∧
    ((framePulses 0x00FF9A65).take 4).map encode = [0x10000000, 0x20001194, 0x10000000, 0x20000230] ∧
    ((framePulses 0x00FF9A65).drop 62).map encode = [0x10000000, 0x20000230, 0x10000000, 0x20000690] := by decide

/-! ## The operations, one step each -/

/-- T-C1 to T-C22. -/
theorem test_classify :
    [0, 299, 801, 1399, 1801, 2199, 2601, 4199, 4701, 65535, 1000].all
      (fun d => decide (classify Config.default d = .invalid)) ∧
    [300, 560, 800].all (fun d => decide (classify Config.default d = .bitZero)) ∧
    [1400, 1680, 1800].all (fun d => decide (classify Config.default d = .bitOne)) ∧
    [2200, 2250, 2600].all (fun d => decide (classify Config.default d = .repeatCode)) ∧
    [4200, 4500, 4700].all (fun d => decide (classify Config.default d = .leader)) := by decide

/-- T-A17. -/
theorem test_rise : seen (·.decoder) (exec (.rise 0) (at_ ⟨.idle, 0, 0, 0, true, false, 0⟩)) =
    some ⟨.idle, 0, 0, 0, true, false, 0⟩ := by decide

/-- T-A20, after its `RISE`. -/
theorem test_fall_completes_a_frame :
    seen (·.decoder) (exec (.fall 1680) (at_ ⟨.receiving, 31, 0x7FFFFFFF, 5, true, false, 0⟩)) =
      some ⟨.receiving, 32, 0xFFFFFFFF, 5, false, true, 0⟩ := by decide

/-- T-A21, after its `RISE`. -/
theorem test_fall_discards_bit_31 :
    seen (·.decoder) (exec (.fall 560) (at_ ⟨.receiving, 3, 0x80000005, 0, true, false, 0⟩)) =
      some ⟨.receiving, 4, 0x0000000A, 0, false, false, 0⟩ := by decide

/-- T-A10, the 14th tick: the pulse flag survives. -/
theorem test_wtick_times_out :
    seen (fun s => (s.decoder, s.result)) (exec .wtick (at_ ⟨.receiving, 1, 1, 13, true, false, 0⟩)) =
      some (⟨.idle, 0, 0, 0, true, false, 0⟩, .timedOut) := by decide

/-- T-A11, the last tick: saturated, not reset. -/
theorem test_wtick_saturates :
    seen (·.decoder) (exec .wtick (at_ (frameAt 0x00FF9A65 14))) = some (frameAt 0x00FF9A65 14) := by decide

/-- T-V1 to T-V12. -/
theorem test_validate :
    [(0x00FF9A65, 0x00), (0x01FE9A65, 0x01), (0xFF00FF00, 0xFF), (0x00FF00FF, 0x00), (0x00FFFF00, 0x00),
      (0x807F1AE5, 0x80)].map (fun x => validate x.1 x.2) =
      [⟨0x9A, true⟩, ⟨0x9A, true⟩, ⟨0xFF, true⟩, ⟨0x00, true⟩, ⟨0xFF, true⟩, ⟨0x1A, true⟩] ∧
    [(0x00FF9A64, 0x00), (0x00FE9A65, 0x00), (0x00FF9A65, 0x01), (0x01FE9A65, 0x00), (0x00000000, 0x00),
      (0xFFFFFFFF, 0xFF)].all (fun x => decide (validate x.1 x.2 = ⟨0, false⟩)) := by decide

/-- T-V27: the read that finds the frame expired answers its key and frees the decoder. -/
theorem test_keyrd_expires :
    seen (fun s => (s.decoder, s.result)) (exec .keyrd (at_ (frameAt 0x00FF9A65 14))) =
      some (⟨.idle, 0, 0, 0, false, false, 0⟩, .key 0x9A) := by decide

/-- T-V23. -/
theorem test_keyrd_rejects :
    seen (fun s => (s.decoder, s.result)) (exec .keyrd (at_ (frameAt 0x00FF9A64 0))) =
      some (⟨.idle, 0, 0, 0, false, false, 0⟩, .key 0) := by decide

/-- T-K8. -/
theorem test_dbstep_repeats :
    seen (fun s => (s.debouncer, s.event)) (exec (.dbstep 7) (keyState ⟨7, 24, 0⟩)) =
      some (⟨7, 20, 0⟩, some ⟨.repeatEv, 7⟩) := by decide

/-- T-K1, the third step. -/
theorem test_dbstep_key_change :
    seen (fun s => (s.debouncer, s.event)) (exec (.dbstep 6) (keyState ⟨5, 0, 2⟩)) =
      some (⟨6, 0, 3⟩, some ⟨.press, 6⟩) := by decide

/-- T-K23. -/
theorem test_poll_releases :
    seen (fun s => (s.decoder, s.debouncer, s.result, s.event))
      (exec .poll { keyState ⟨0x9A, 7, 0⟩ with decoder := frameAt 0x00FF9A64 0 }) =
      some (⟨.idle, 0, 0, 0, false, false, 0⟩, ⟨0, 0, 3⟩, .key 0, none) := by decide

/-- T-K22, the second `POLL`. -/
theorem test_poll_expires :
    seen (fun s => (s.decoder, s.debouncer, s.result, s.event))
      (exec .poll { keyState ⟨0x9A, 0, 3⟩ with decoder := frameAt 0x00FF9A65 14 }) =
      some (⟨.idle, 0, 0, 0, false, false, 0⟩, ⟨0x9A, 0, 2⟩, .key 0x9A, none) := by decide

/-- T-P5. -/
theorem test_setduty :
    [(-128 : Int), -1, 0, 4, 10, 11, 127].map
      (fun v => seen (·.pwm.dutyLevel) (exec (.setduty (BitVec.ofInt 8 v)) State.reset)) =
      [some 0, some 0, some 0, some 4, some 10, some 10, some 10] := by decide

/-- T-P6, T-P10. -/
theorem test_seten :
    seen (·.pwm.enabled) (performAll [.seten 8 true, .seten 255 true] State.reset) = some (List.replicate 8 false) ∧
    seen (·.pwm.enabled) (performAll [.seten 2 true, .seten 2 true] State.reset) =
      some [false, false, true, false, false, false, false, false] := by decide

/-- T-P3, ticks 10 and 4. -/
theorem test_ptick :
    [(9 : BitVec 4), 3].map (fun n =>
      seen (fun s => (s.pwm.counter, pinByte s)) (exec .ptick { State.reset with
        pwm := ⟨n, 4, [true, false, false, true, false, false, false, false], List.replicate 8 false⟩ })) =
      [some (0, 0xF6), some (4, 0xFF)] := by decide

/-- T-R1, its last operation. -/
theorem test_reset :
    stateOf (exec .reset { keyState ⟨0x9A, 0, 3⟩ with
      decoder := { frameAt 0x00FF9A65 0 with pulseInProgress := true }
      pwm := ⟨3, 7, false :: true :: List.replicate 6 false, false :: true :: List.replicate 6 false⟩ }) =
      some (State.boot keyConfig []) := by decide

/-! ## Values that meet the hypotheses of the statements -/

/-- DecodingFollowsTheOneMatchingRow, EncodeOfDecodeIsTheWord. -/
theorem witness_decoding :
    ((0x900000FF : Word) &&& OpRow.seten.mask ≠ OpRow.seten.matchBits) ∧
    ((0x9000FF01 : Word) &&& OpRow.seten.mask = OpRow.seten.matchBits) ∧
    (decode 0x9000FF01).toOption = some (.seten 255 true) := by decide

/-- ReservedWordIsRefused: a word of each branch. -/
theorem witness_reserved_word :
    (offered 0xB0000000).cfg.legal = true ∧ (offered 0xB0000000).opPort = { opValid := true, opWord := 0xB0000000 } :: [] ∧
    (∀ r : OpRow, 0xB0000000 &&& r.mask ≠ r.matchBits) ∧ (∀ r : OpRow, 0xA0000001 &&& r.mask ≠ r.matchBits) := by
  refine ⟨by decide, rfl, ?_, ?_⟩ <;> intro r <;> cases r <;> decide

/-- ReservedWordIsRefused: both branches, at the ends of each. -/
theorem witness_reserved_branches :
    ([0x00000000, 0x0FFFFFFF, 0xB0000000, 0xFFFFFFFF, 0x10010000, 0xA0000001] : List Word).all
      (fun w => opRows.all fun r => decide (w &&& r.mask ≠ r.matchBits)) ∧
    ([0x00000000, 0x0FFFFFFF, 0xB0000000, 0xFFFFFFFF, 0x10010000, 0xA0000001] : List Word).map
      (fun w => decide (w.toNat / 2 ^ 28 = 0 ∨ 11 ≤ w.toNat / 2 ^ 28)) = [true, true, true, true, false, false] := by
  decide

/-- StepPerformsThePresentedOperation, NoStepWritesTheConfiguration, StoredEncodingIsPerformedNext. -/
theorem witness_presented_operation :
    (offered 0x70000000).cfg.legal = true ∧ (offered 0x70000000).opPort = { opValid := true, opWord := 0x70000000 } :: [] ∧
    (decode 0x70000000).toOption = some .poll ∧ (stateOf (step (offered 0x70000000))).isSome = true := by decide

/-- StepWithNothingPresentedIsIdle: the port past its listed levels, and the port with `op_valid` = 0. -/
theorem witness_nothing_presented :
    State.reset.cfg.legal = true ∧ (∀ p ∈ State.reset.opPort.head?, p.opValid = false) ∧
    ∀ p ∈ (State.boot Config.default [{ opValid := false, opWord := 0xF0000000 }]).opPort.head?, p.opValid = false := by
  decide

/-- StepRefusesExactlyTheIllegalConfigurations: a step that is not so refused. -/
theorem witness_legal_step : refusalOf (step State.reset) = none := by decide

/-- OutputsAtResetAndUntilATickLights: the tick that lights channel 0. -/
theorem witness_first_lit_pin :
    let s := { State.reset with pwm := ⟨9, 1, true :: List.replicate 7 false, List.replicate 8 false⟩ }
    pin s 0 = true ∧ seen (pin · 0) (exec .ptick s) = some false := by decide

/-- ClassIsTheOneBandThatHoldsTheDuration: every clause at both ends of its band, closed and open. -/
theorem witness_classes :
    Config.default.legal = true ∧ { Config.default with bandClosed := false }.legal = true ∧
    [300, 800, 1400, 1800, 2200, 2600, 4200, 4700].map (classify Config.default) =
      [.bitZero, .bitZero, .bitOne, .bitOne, .repeatCode, .repeatCode, .leader, .leader] ∧
    [301, 799, 1401, 1799, 2201, 2599, 4201, 4699].map (classify { Config.default with bandClosed := false }) =
      [.bitZero, .bitZero, .bitOne, .bitOne, .repeatCode, .repeatCode, .leader, .leader] ∧
    [299, 801, 1399, 1801, 2199, 2601, 4199, 4701].all (fun d => decide (classify Config.default d = .invalid)) := by
  decide

/-- OnlyTheEightEndPointsDependOnBandClosed, EveryFrameArrivesAndIsRead. -/
theorem witness_source_bands :
    SourceBands Config.default ∧ 1 ≤ Config.default.wdtCeiling.toNat ∧ State.reset.decoder.phase = .idle ∧
    ValidFrameFor Config.default.deviceId 0x00FF9A65 ∧ ¬ValidFrameFor Config.default.deviceId 0x00FF9A64 := by
  unfold SourceBands ValidFrameFor
  decide

/-- SameClassSameFall: the two ends of a band. -/
theorem witness_same_class : ∀ x ∈ Config.default.bands, InBand Config.default x 300 ↔ InBand Config.default x 800 := by
  unfold InBand
  decide

/-- FallWithoutAPulseChangesNothing, FallFollowsTheTransitionTable: a state and a duration for each clause of the
table, the last bit among them. -/
theorem witness_fall_clauses :
    State.reset.decoder.pulseInProgress = false ∧
    (∀ d ∈ [(⟨.idle, 0, 0, 0, true, false, 0⟩ : DecoderState), ⟨.leaderSeen, 0, 0, 2, true, false, 0⟩,
      ⟨.receiving, 31, 5, 0, true, false, 0⟩, { frameAt 0x00FF9A65 0 with pulseInProgress := true }],
      (at_ d).decoder.pulseInProgress = true) ∧
    [4200, 300, 1800, 2600, 0].map (classify (at_ (frameAt 0 0)).cfg) =
      [.leader, bitClass false, bitClass true, .repeatCode, .invalid] := by decide

/-- AcceptedRepeatCountsAndFeedsTheWatchdog: at the top of the count. -/
theorem witness_accepted_repeat :
    let s := at_ ⟨.receiving, 1, 1, 13, true, false, 255⟩
    s.decoder.pulseInProgress = true ∧ s.decoder.phase = .receiving ∧ classify s.cfg 2200 = .repeatCode ∧
    8 ≤ s.cfg.repeatCntWidth := by decide

/-- WatchdogTickFollowsItsRules: one decoder for each clause, at the deadline where there is one. -/
theorem witness_wtick_clauses :
    let full := frameAt 0x00FF9A65 14
    let early : DecoderState := ⟨.leaderSeen, 0, 0, 12, false, false, 0⟩
    let late : DecoderState := ⟨.receiving, 31, 5, 13, false, false, 0⟩
    State.reset.decoder.phase = .idle ∧ (full.phase ≠ .idle ∧ full.bitCount.toNat = 32) ∧
    (early.phase ≠ .idle ∧ early.bitCount.toNat < 32 ∧
      early.watchdogTicks.toNat + 1 < (at_ early).cfg.wdtCeiling.toNat) ∧
    (late.phase ≠ .idle ∧ late.bitCount.toNat < 32 ∧
      (at_ late).cfg.wdtCeiling.toNat ≤ late.watchdogTicks.toNat + 1) := by decide

/-- PartialFrameTimesOutAtTheCeiling, at 31 bits. -/
theorem witness_partial_frame :
    let s := at_ ⟨.receiving, 31, 5, 0, false, false, 0⟩
    1 ≤ s.cfg.wdtCeiling.toNat ∧ s.decoder.phase ≠ .idle ∧ s.decoder.bitCount.toNat < 32 ∧
    s.decoder.watchdogTicks = 0 := by decide

/-- TrackedFrameOutlastsTheWatchdog, KeyLivesUntilTheFirstExpiredRead: at the ceiling and one tick below. -/
theorem witness_tracked_frame :
    ∀ n ∈ [(13 : BitVec 4), 14],
      let s := at_ (frameAt 0x00FF9A65 n)
      TracksFrame s.decoder ∧ ValidFrameFor s.cfg.deviceId s.decoder.accumulator ∧
      s.decoder.watchdogTicks.toNat ≤ s.cfg.wdtCeiling.toNat := by
  unfold TracksFrame ValidFrameFor
  decide

/-- The invariants hold of a partial frame, of a tracked valid frame and of a tracked invalid one. -/
theorem witness_invariants :
    ∀ d ∈ [(⟨.receiving, 1, 1, 13, true, false, 0⟩ : DecoderState), frameAt 0x00FF9A65 14, frameAt 0x00FF9A64 0],
      BlockInv { keyState ⟨7, 24, 0⟩ with decoder := d } := by
  unfold BlockInv DecoderInv PhaseInv FrameInv DebounceInv PwmInv
  decide

/-- OnlyLeaderRepeatOrResetRestartTheWatchdog: a REPEAT, a timeout and an expiry read lower the count. -/
theorem witness_watchdog_restarts :
    seen (·.decoder.watchdogTicks) (exec (.fall 2250) (at_ ⟨.receiving, 1, 1, 13, true, false, 0⟩)) = some 0 ∧
    seen (·.decoder.watchdogTicks) (exec .wtick (at_ ⟨.receiving, 1, 1, 13, true, false, 0⟩)) = some 0 ∧
    seen (·.decoder.watchdogTicks) (exec .keyrd (at_ (frameAt 0x00FF9A65 14))) = some 0 := by decide

/-- PhaseIsWrittenOnlyByItsThreeRules, PulseFlagIsWrittenByEdgesAndReset, EnginesAreWrittenOnlyByTheirOperations:
operations that do write. -/
theorem witness_register_writes :
    seen (·.decoder.phase) (exec (.fall 4500) (at_ ⟨.idle, 0, 0, 0, true, false, 0⟩)) = some .leaderSeen ∧
    seen (·.decoder.phase) (exec (.fall 560) (at_ ⟨.leaderSeen, 0, 0, 0, true, false, 0⟩)) = some .receiving ∧
    seen (·.decoder.phase) (exec .poll (at_ (frameAt 0x00FF9A65 14))) = some .idle ∧
    seen (·.debouncer.lastKey) (exec (.dbstep 5) State.reset) = some 5 ∧
    seen (·.pwm.counter) (exec .ptick State.reset) = some 1 := by decide

/-- FallWithoutAPulseChangesNothing, second part: a leader after a reset. -/
theorem witness_alternating_edges :
    edgesAlternate false ([.reset, .wtick, .rise 0] ++ .fall 4500 :: [.rise 560]) = true ∧
    (stateOf (performAll [.reset, .wtick, .rise 0] State.reset)).isSome = true := by decide

/-- ThirtyTwoBitsReplaceTheAccumulator: 31 ones and a zero at the ends of their bands, over an accumulator of ones. -/
theorem witness_thirty_two_bits :
    let s := at_ ⟨.leaderSeen, 0, 0xFFFFFFFF, 0, false, false, 0⟩
    let bits : List (Bool × Micros) := List.replicate 31 (true, 1800) ++ [(false, 300)]
    s.decoder.phase = .leaderSeen ∧ s.decoder.bitCount = 0 ∧ bits.length = 32 ∧
    ∀ x ∈ bits, classify s.cfg x.2 = bitClass x.1 := by
  refine ⟨rfl, rfl, rfl, fun x hx => ?_⟩
  rcases List.mem_append.1 hx with h | h
  · rw [List.eq_of_mem_replicate h]
    decide
  · rw [List.mem_singleton.1 h]
    decide

/-- ValidateAcceptsOneFramePerCommand: a well-formed frame for this device and one for another. -/
theorem witness_frames :
    (validate 0x00FF9A65 0x00).valid = true ∧ (validate 0x00FF9A65 0x01).valid = false ∧
    wellFormedFrame (frameView 0x00FF9A65) = true := by decide

/-- KeyReadFollowsItsRules: one decoder for each clause, at and below the ceiling. -/
theorem witness_keyrd_clauses :
    State.reset.decoder.frameReady = false ∧
    (¬ValidFrameFor 0x00 (frameAt 0x00FF9A64 14).accumulator ∧ (frameAt 0x00FF9A64 14).frameReady = true) ∧
    ValidFrameFor 0x00 (frameAt 0x00FF9A65 14).accumulator ∧ Config.default.deviceId = 0x00 ∧
    Config.default.wdtCeiling.toNat ≤ (frameAt 0x00FF9A65 14).watchdogTicks.toNat ∧
    (frameAt 0x00FF9A65 13).watchdogTicks.toNat < Config.default.wdtCeiling.toNat := by
  unfold ValidFrameFor
  decide

/-- DebouncerStepFollowsItsCases: NEW, SETTLE at 1, HOLD at and below the threshold, HOLD outside the whitelist at
255, IDLE. -/
theorem witness_dbstep_clauses :
    (5 : Byte) ≠ (keyState ⟨7, 0, 3⟩).debouncer.lastKey ∧
    0 < (keyState ⟨7, 0, 1⟩).debouncer.debounceTimer.toNat ∧
    ((7 : Byte) ∈ keyConfig.whitelist ∧ keyConfig.holdThreshold.toNat ≤ min ((24 : BitVec 8).toNat + 1) 255) ∧
    min ((23 : BitVec 8).toNat + 1) 255 < keyConfig.holdThreshold.toNat ∧
    ((9 : Byte) ∉ keyConfig.whitelist ∧ min ((255 : BitVec 8).toNat + 1) 255 = 255) ∧
    (0 : Byte) = State.reset.debouncer.lastKey := by decide

/-- HeldKeyIsPressedOnce, HeldWhitelistedKeyRepeatsOnItsCadence: a listed and an unlisted key from reset. -/
theorem witness_held_keys :
    keyConfig.legal = true ∧ (7 : Byte) ∈ keyConfig.whitelist ∧ (9 : Byte) ∉ keyConfig.whitelist ∧
    (7 : Byte) ≠ (keyState ⟨0, 0, 0⟩).debouncer.lastKey ∧ (9 : Byte) ≠ (keyState ⟨0, 0, 0⟩).debouncer.lastKey ∧
    (7 : Byte) ≠ 0 ∧ (9 : Byte) ≠ 0 := by decide

/-- PollOnAMalformedFrameReleasesTheKey, MismatchIsAnsweredAsNoKey. -/
theorem witness_malformed_frame :
    let s := { keyState ⟨0x9A, 7, 0⟩ with decoder := frameAt 0x00FF9A64 0 }
    s.decoder.frameReady = true ∧ ¬ValidFrameFor s.cfg.deviceId s.decoder.accumulator ∧ s.debouncer.lastKey ≠ 0 ∧
    errorLabel .poll s = some .checksumOrAddressMismatch ∧ errorLabel .keyrd s = some .checksumOrAddressMismatch := by
  unfold ValidFrameFor
  decide

/-- EventsComeFromTheDebouncerAndNameAKey: an event of each operation. -/
theorem witness_events :
    seen (·.event) (exec (.dbstep 5) State.reset) = some (some ⟨.press, 5⟩) ∧
    seen (·.event) (exec .poll (at_ (frameAt 0x00FF9A65 0))) = some (some ⟨.press, 0x9A⟩) := by decide

/-- TenTicksAreOneDutyCycle, BoundaryDutiesAreExact: the engine at duties 0, 4 and 10, channel 0 enabled and 1 not. -/
theorem witness_pwm :
    ∀ d ∈ [(0 : BitVec 4), 4, 10],
      let s := { State.reset with pwm := ⟨9, d, true :: List.replicate 7 false, List.replicate 8 false⟩ }
      PwmInv s.pwm ∧ 0 < s.cfg.nChannels ∧ s.pwm.dutyLevel = d ∧ enabledAt s.pwm 0 = true ∧
      enabledAt s.pwm 1 = false ∧ (stateOf (exec .ptick s)).isSome = true := by
  unfold PwmInv
  decide

/-- SetEnableWritesOneFlag: the last channel and the first index past it. -/
theorem witness_channels :
    ChannelForm State.reset.cfg State.reset.pwm ∧ channelIndex 7 < State.reset.cfg.nChannels ∧
    State.reset.cfg.nChannels ≤ channelIndex 8 := by
  unfold ChannelForm
  decide

/-- EveryStepKeepsTheInvariants, EveryStepKeepsTheChannelForm: a state with both that steps. -/
theorem witness_invariant_step :
    let s := { offered 0x30000000 with decoder := (⟨.receiving, 1, 1, 13, true, false, 0⟩ : DecoderState) }
    BlockInv s ∧ ChannelForm s.cfg s.pwm ∧ seen (·.decoder.phase) (step s) = some .idle := by
  unfold BlockInv DecoderInv PhaseInv FrameInv DebounceInv PwmInv ChannelForm
  decide

/-- PwmCommutesWithTheKeyChain, DebouncerStepCommutesWithInterrupts. -/
theorem witness_commuting_operations :
    [Instr.ptick, .setduty 4, .seten 0 true].all pwmOperation ∧
    [Instr.rise 0, .fall 0, .wtick, .keyrd, .dbstep 5, .poll].all keyOperation := by decide

/-- TimedOutIsShownExactlyByFrameTimeout, HarmlessConditionsChangeNothing: a state that meets each condition. -/
theorem witness_error_labels :
    errorLabel .wtick (at_ ⟨.receiving, 1, 1, 13, true, false, 0⟩) = some .frameTimeout ∧
    errorLabel .wtick State.reset = some .noSignal ∧
    errorLabel (.fall 0) (at_ ⟨.receiving, 1, 1, 13, true, false, 0⟩) = some .spuriousPulse ∧
    errorLabel (.fall 2250) (at_ ⟨.leaderSeen, 0, 0, 0, true, false, 0⟩) = some .repeatWithoutActiveFrame := by
  decide

/-- Those states, the reset state among them, and those of witness_watchdog_restarts meet the invariants. -/
theorem witness_error_states :
    ∀ d ∈ [DecoderState.reset, ⟨.receiving, 1, 1, 13, true, false, 0⟩, ⟨.leaderSeen, 0, 0, 0, true, false, 0⟩,
      frameAt 0x00FF9A65 14], BlockInv (at_ d) := by
  unfold BlockInv DecoderInv PhaseInv FrameInv DebounceInv PwmInv
  decide

/-- HarmlessConditionsChangeNothing: a `POLL` that meets NoSignal with a key latched, in a state of the invariants. -/
theorem witness_poll_without_signal :
    BlockInv (keyState ⟨7, 24, 0⟩) ∧ errorLabel .poll (keyState ⟨7, 24, 0⟩) = some .noSignal ∧
    seen (fun s => (s.debouncer, s.result, s.event)) (exec .poll (keyState ⟨7, 24, 0⟩)) =
      some (⟨0, 0, 3⟩, .key 0, none) := by
  unfold BlockInv DecoderInv PhaseInv FrameInv DebounceInv PwmInv
  refine ⟨?_, by decide, by decide⟩
  decide

end Sys2Proof.Tests
end

section
/-! What a step refuses for its configuration (00_scope.md R9, R10). -/

namespace Sys2Proof.Machine

/-- The test `CLASSIFY` makes decides the statement's own reading of a band (40_edge_classifier.md R121, R124). -/
theorem inBand_iff_InBand (c : Config) (b : Band) (d : Micros) : inBand c b d = true ↔ InBand c b d := by
  unfold inBand InBand microseconds
  split <;> simp

/-- `Config.apart` over the whole list: no two bands share a duration (00_scope.md R10). -/
theorem pairwise_apart_iff (c : Config) (bands : List Band) :
    bands.Pairwise (fun a b => c.apart a b = true) ↔
      bands.Pairwise fun a b => ∀ d, ¬(InBand c a d ∧ InBand c b d) := by
  simp only [apart_iff, inBand_iff_InBand]

/-- The configurations that pass every check of 00_scope.md R9 and R10, one conjunct a check, in its order. -/
theorem check_eq_none_iff (c : Config) :
    c.check = none ↔
      (∀ b ∈ c.bands, b.lo.toNat ≤ b.hi.toNat) ∧
      c.bands.Pairwise (fun a b => ∀ d : Micros, ¬(InBand c a d ∧ InBand c b d)) ∧
      (13 ≤ c.tsWidth ∧ c.leaderBand.hi.toNat + 1 < 2 ^ c.tsWidth) ∧
      1 ≤ c.wdtCeiling.toNat ∧ c.debounceWindow.toNat ≤ 10 ∧ 1 ≤ c.holdThreshold.toNat ∧
      c.repeatReload.toNat < c.holdThreshold.toNat ∧ 0 ∉ c.whitelist ∧
      (1 ≤ c.nChannels ∧ c.nChannels ≤ 256) ∧ 1 ≤ c.repeatCntWidth := by
  simp only [Config.check, ite_eq_iff, reduceCtorEq, and_false, false_or, and_true]
  simp only [← pairwise_apart_iff, Bool.not_eq_true', Bool.not_eq_false, List.all_eq_true, decide_eq_true_eq,
    Bool.or_eq_true, List.contains_iff_mem, not_or, not_lt, not_le, Nat.one_le_iff_ne_zero, ne_eq]

/-- No operation is refused: each arm ends in `answer` (20_memory.md R79). -/
theorem exec_ne_refused (i : Instr) (s : State) (r : Refusal) : exec i s ≠ .refused r := by
  cases i <;> exact nofun

/-- Past the check of the configuration, the reasons left to refuse a step are the two of a reserved word
(30_encoding.md R96). -/
theorem perform_ne_illegalConfiguration (w : Word) (s : State) (e : ConfigError) :
    perform w s ≠ .refused (.illegalConfiguration e) := by
  unfold perform
  cases decode w with
  | ok i => exact exec_ne_refused i s _
  | error reserved => cases reserved <;> exact nofun

/-- A step is refused for its configuration exactly by the error its check finds, whatever is presented. -/
theorem step_eq_illegalConfiguration_iff (s : State) (e : ConfigError) :
    step s = .refused (.illegalConfiguration e) ↔ s.cfg.check = some e := by
  unfold step
  cases s.cfg.check with
  | some found => simp
  | none =>
    cases presented s with
    | none => exact iff_of_false nofun nofun
    | some w => exact iff_of_false (perform_ne_illegalConfiguration w _ e) nofun

/-- Settles O9: the refusal is the check's error, and the check finds none exactly when R9 and R10 are met. -/
theorem stepRefusesExactlyTheIllegalConfigurations :
    Obligations.StepRefusesExactlyTheIllegalConfigurations := by
  intro s
  calc (¬∃ e, step s = .refused (.illegalConfiguration e))
      ↔ ¬∃ e, s.cfg.check = some e := by simp only [step_eq_illegalConfiguration_iff]
    _ ↔ s.cfg.check = none := by rw [← Option.ne_none_iff_exists', not_not]
    _ ↔ _ := by rw [check_eq_none_iff]; simp only [and_assoc]

end Sys2Proof.Machine
end

section
/-! The registers each operation leaves, one engine at a time: what an operation or a step does to the whole state is
said once here, and each statement about one engine is then a fact about one of these functions. -/

namespace Sys2Proof.Machine

/-! What an operation does to each engine. -/

/-- The decoder an operation leaves (10_state.md R23 to R29). -/
def decoderAfter : Instr → State → DecoderState
  | .rise _, s => risingEdge s.decoder
  | .fall ts, s => fallingEdge s.cfg ts s.decoder
  | .wtick, s => (watchdogTick s.cfg s.decoder).1
  | .keyrd, s | .poll, s => (readKey s.cfg s.decoder).2
  | .reset, _ => clearedDecoder false
  | .ptick, s | .dbstep _, s | .setduty _, s | .seten _ _, s => s.decoder

/-- The debouncer an operation leaves (10_state.md R33 to R35). -/
def debouncerAfter : Instr → State → DebounceState
  | .dbstep k, s => (debounce s.cfg k s.debouncer).1
  | .poll, s => (debounce s.cfg (readKey s.cfg s.decoder).1 s.debouncer).1
  | .reset, _ => DebounceState.reset
  | .rise _, s | .fall _, s | .wtick, s | .ptick, s | .keyrd, s | .setduty _, s | .seten _ _, s => s.debouncer

/-- The PWM engine an operation leaves (10_state.md R36 to R39). -/
def pwmAfter : Instr → State → PwmState
  | .ptick, s => pwmTick s.cfg s.pwm
  | .setduty v, s => { s.pwm with dutyLevel := clampDuty (dutyInteger v) }
  | .seten ch en, s => setChannel s.cfg ch en s.pwm
  | .reset, s => PwmState.reset s.cfg.nChannels
  | .rise _, s | .fall _, s | .wtick, s | .keyrd, s | .dbstep _, s | .poll, s => s.pwm

/-- The state an operation leaves, field by field but for its two ports. -/
theorem exec_next_registers {i : Instr} {s t : State} (h : exec i s = .next t) :
    t.cfg = s.cfg ∧ t.opPort = s.opPort ∧ t.decoder = decoderAfter i s ∧ t.debouncer = debouncerAfter i s ∧
      t.pwm = pwmAfter i s := by
  cases i <;> (obtain rfl := answer_eq_next_iff.1 h; exact ⟨rfl, rfl, rfl, rfl, rfl⟩)

/-- No operation reads the levels of the operation port to come. -/
theorem decoderAfter_taken (i : Instr) (s : State) : decoderAfter i (taken s) = decoderAfter i s := by
  cases i <;> rfl

theorem debouncerAfter_taken (i : Instr) (s : State) : debouncerAfter i (taken s) = debouncerAfter i s := by
  cases i <;> rfl

theorem pwmAfter_taken (i : Instr) (s : State) : pwmAfter i (taken s) = pwmAfter i s := by
  cases i <;> rfl

/-- The state a step leaves: under a legal configuration, the registers as they were or as one operation leaves them
(20_memory.md R63). -/
theorem step_next_registers {s t : State} (h : step s = .next t) :
    s.cfg.check = none ∧ t.cfg = s.cfg ∧ t.opPort = s.opPort.tail ∧
    ((t.decoder = s.decoder ∧ t.debouncer = s.debouncer ∧ t.pwm = s.pwm) ∨
      ∃ i, t.decoder = decoderAfter i s ∧ t.debouncer = debouncerAfter i s ∧ t.pwm = pwmAfter i s) := by
  obtain ⟨hlegal, ⟨-, rfl⟩ | ⟨w, i, -, -, hexec⟩⟩ := step_next_cases h
  · exact ⟨hlegal, rfl, rfl, .inl ⟨rfl, rfl, rfl⟩⟩
  · obtain ⟨hcfg, hport, hdecoder, hdebouncer, hpwm⟩ := exec_next_registers hexec
    rw [decoderAfter_taken] at hdecoder
    rw [debouncerAfter_taken] at hdebouncer
    rw [pwmAfter_taken] at hpwm
    exact ⟨hlegal, hcfg, hport, .inr ⟨i, hdecoder, hdebouncer, hpwm⟩⟩

/-! What the shared decoder operations can do, in the terms of the statements. -/

theorem decoderReset_eq_clearedDecoder (d : DecoderState) : decoderReset d = clearedDecoder d.pulseInProgress := rfl

/-- Everything a falling edge can do (41_frame_assembler.md R139, R149): the flag is clear after it whichever case
applies. -/
theorem fallingEdge_cases (c : Config) (ts : Micros) (d : DecoderState) :
    (classify c ts = .leader ∧ d.phase = .idle ∧
      fallingEdge c ts d = { acceptLeader d with pulseInProgress := false }) ∨
    (∃ b, classify c ts = bitClass b ∧ d.phase ≠ .idle ∧ d.bitCount.toNat < 32 ∧
      fallingEdge c ts d = { acceptBit b d with pulseInProgress := false }) ∨
    (classify c ts = .repeatCode ∧ d.phase = .receiving ∧
      fallingEdge c ts d = { acceptRepeat c d with pulseInProgress := false }) ∨
    fallingEdge c ts d = { d with pulseInProgress := false } := by
  cases hpulse : d.pulseInProgress with
  | false =>
    refine .inr (.inr (.inr ?_))
    rw [fallingEdge_of_no_pulse c ts hpulse, ← hpulse]
  | true =>
    rw [fallingEdge_of_pulse c ts hpulse]
    obtain ⟨hclass, hphase, heq⟩ | ⟨b, hclass, hphase, hcount, heq⟩ | ⟨hclass, hphase, heq⟩ | heq :=
      assemblePulse_cases c (classify c ts) d <;> rw [heq]
    · exact .inl ⟨hclass, hphase, rfl⟩
    · exact .inr (.inl ⟨b, hclass, hphase, hcount, rfl⟩)
    · exact .inr (.inr (.inl ⟨hclass, hphase, rfl⟩))
    · exact .inr (.inr (.inr rfl))

/-- The decoder a key read leaves (42_frame_validator.md R174). -/
theorem readKey_decoder_cases (c : Config) (d : DecoderState) :
    (readKey c d).2 = d ∨ (readKey c d).2 = decoderReset d := by
  obtain ⟨-, heq⟩ | ⟨-, -, heq⟩ | ⟨-, -, -, heq⟩ | ⟨-, -, -, heq⟩ := readKey_cases c d <;> simp [heq]

end Sys2Proof.Machine
end

section
/-! What writes the parameters and each register (10_state.md R22 to R40). -/

namespace Sys2Proof.Machine

/-- Settles O10. -/
theorem noStepWritesTheConfiguration : Obligations.NoStepWritesTheConfiguration := by
  intro s t hstep
  obtain ⟨-, hcfg, hport, -⟩ := step_next_registers hstep
  exact ⟨hcfg, hport⟩

theorem fallingEdge_pulseInProgress (c : Config) (ts : Micros) (d : DecoderState) :
    (fallingEdge c ts d).pulseInProgress = false := by
  obtain ⟨-, -, heq⟩ | ⟨b, -, -, -, heq⟩ | ⟨-, -, heq⟩ | heq := fallingEdge_cases c ts d <;> rw [heq]

theorem watchdogTick_pulseInProgress (c : Config) (d : DecoderState) :
    (watchdogTick c d).1.pulseInProgress = d.pulseInProgress := by
  obtain ⟨-, heq⟩ | ⟨-, -, heq⟩ | ⟨-, -, -, heq⟩ | ⟨-, -, -, heq⟩ := watchdogTick_cases c d <;>
    rw [heq] <;> rfl

theorem readKey_pulseInProgress (c : Config) (d : DecoderState) :
    (readKey c d).2.pulseInProgress = d.pulseInProgress := by
  obtain heq | heq := readKey_decoder_cases c d <;> rw [heq]
  rfl

/-- Settles O27: of the operations on the decoder, the watchdog tick and the key read leave the flag. -/
theorem pulseFlagIsWrittenByEdgesAndReset : Obligations.PulseFlagIsWrittenByEdgesAndReset := by
  intro i s t hexec
  obtain ⟨-, -, hdecoder, -, -⟩ := exec_next_registers hexec
  rw [hdecoder]
  cases i with
  | fall ts => exact fallingEdge_pulseInProgress s.cfg ts s.decoder
  | wtick => exact watchdogTick_pulseInProgress s.cfg s.decoder
  | keyrd | poll => exact readKey_pulseInProgress s.cfg s.decoder
  | rise _ | reset | ptick | dbstep _ | setduty _ | seten _ _ => rfl

/-- Settles O26: an operation that writes the phase takes one of the branches of `FALL` that accept a pulse, or
returns the decoder to IDLE. -/
theorem phaseIsWrittenOnlyByItsThreeRules : Obligations.PhaseIsWrittenOnlyByItsThreeRules := by
  intro i s t hexec
  obtain ⟨-, -, hdecoder, -, -⟩ := exec_next_registers hexec
  rw [hdecoder]
  cases i with
  | fall ts =>
    simp only [decoderAfter]
    obtain ⟨hclass, hidle, heq⟩ | ⟨b, hclass, hphase, -, heq⟩ | ⟨-, -, heq⟩ | heq :=
      fallingEdge_cases s.cfg ts s.decoder <;> rw [heq]
    · exact .inr (.inl ⟨ts, rfl, hclass, hidle, rfl⟩)
    · exact .inr (.inr (.inl ⟨ts, b, rfl, hclass, hphase, rfl⟩))
    · exact .inl rfl
    · exact .inl rfl
  | wtick =>
    simp only [decoderAfter]
    obtain ⟨-, heq⟩ | ⟨-, -, heq⟩ | ⟨-, -, -, heq⟩ | ⟨-, -, -, heq⟩ := watchdogTick_cases s.cfg s.decoder <;>
      rw [heq]
    · exact .inl rfl
    · exact .inl rfl
    · exact .inr (.inr (.inr ⟨by simp, decoderReset_eq_clearedDecoder s.decoder⟩))
    · exact .inl rfl
  | keyrd | poll =>
    simp only [decoderAfter]
    obtain heq | heq := readKey_decoder_cases s.cfg s.decoder <;> rw [heq]
    · exact .inl rfl
    · exact .inr (.inr (.inr ⟨by simp, decoderReset_eq_clearedDecoder s.decoder⟩))
  | reset => exact .inr (.inr (.inr ⟨by simp, rfl⟩))
  | rise _ | ptick | dbstep _ | setduty _ | seten _ _ => exact .inl rfl

/-- The tick of a tracked frame lowers no count that is at most the ceiling. -/
theorem le_tickTracked_watchdogTicks {c : Config} {d : DecoderState}
    (h : d.watchdogTicks.toNat ≤ c.wdtCeiling.toNat) :
    d.watchdogTicks.toNat ≤ (tickTracked c d).watchdogTicks.toNat := by
  rw [tickTracked_watchdogTicks, saturatingInc_toNat]
  omega

/-- Settles O25: the invariant shuts out the accepted leader, since the count is 0 in IDLE already, and a tracked
frame's count above the ceiling. -/
theorem onlyLeaderRepeatOrResetRestartTheWatchdog : Obligations.OnlyLeaderRepeatOrResetRestartTheWatchdog := by
  intro i s t hinv hexec hlower
  obtain ⟨⟨⟨hidle, -⟩, -, hceiling, -⟩, -, -⟩ := hinv
  obtain ⟨-, -, hdecoder, -, -⟩ := exec_next_registers hexec
  rw [hdecoder] at hlower ⊢
  cases i with
  | fall ts =>
    simp only [decoderAfter] at hlower ⊢
    obtain ⟨-, hphase, -⟩ | ⟨b, -, -, -, heq⟩ | ⟨hclass, hphase, heq⟩ | heq :=
      fallingEdge_cases s.cfg ts s.decoder
    · obtain ⟨-, hticks, -⟩ := hidle hphase
      simp [hticks] at hlower
    · simp [heq] at hlower
    · rw [heq]
      exact ⟨rfl, .inl ⟨ts, rfl, hclass, hphase⟩⟩
    · simp [heq] at hlower
  | wtick =>
    simp only [decoderAfter] at hlower ⊢
    obtain ⟨-, heq⟩ | ⟨-, -, heq⟩ | ⟨-, -, -, heq⟩ | ⟨-, -, hbelow, heq⟩ :=
      watchdogTick_cases s.cfg s.decoder <;> rw [heq] at hlower ⊢
    · exact absurd hlower (lt_irrefl _)
    · exact absurd hlower (not_lt.2 (le_tickTracked_watchdogTicks hceiling))
    · exact ⟨rfl, .inr ⟨rfl, by simp⟩⟩
    · have hticks := tickPartial_watchdogTicks_toNat hbelow
      simp only [hticks] at hlower
      omega
  | keyrd | poll =>
    simp only [decoderAfter] at hlower ⊢
    obtain heq | heq := readKey_decoder_cases s.cfg s.decoder <;> rw [heq] at hlower ⊢
    · exact absurd hlower (lt_irrefl _)
    · exact ⟨rfl, .inr ⟨rfl, by simp⟩⟩
  | reset => exact ⟨rfl, .inr ⟨rfl, by simp⟩⟩
  | rise _ | ptick | dbstep _ | setduty _ | seten _ _ => exact absurd hlower (lt_irrefl _)

/-- Settles O39: the operations not named for a register leave it. -/
theorem enginesAreWrittenOnlyByTheirOperations : Obligations.EnginesAreWrittenOnlyByTheirOperations := by
  intro i s t hexec
  obtain ⟨-, -, -, hdebouncer, hpwm⟩ := exec_next_registers hexec
  rw [hdebouncer, hpwm]
  cases i with
  | seten ch en => simp [debouncerAfter, pwmAfter, setChannel_counter, setChannel_active, setChannel_dutyLevel]
  | rise _ | fall _ | wtick | ptick | keyrd | dbstep _ | poll | setduty _ | reset => simp [debouncerAfter, pwmAfter]

end Sys2Proof.Machine
end

section
/-! The invariants of 10_state.md section 6: the booted block meets them, and every step keeps them. -/

namespace Sys2Proof.Machine

/-! The decoder (10_state.md R44 to R46). -/

/-- The invariant speaks of every decoder register but the pulse flag. -/
theorem decoderInv_pulseInProgress (c : Config) (d : DecoderState) (pulse : Bool) :
    DecoderInv c { d with pulseInProgress := pulse } ↔ DecoderInv c d := Iff.rfl

theorem clearedDecoder_decoderInv (c : Config) (pulse : Bool) : DecoderInv c (clearedDecoder pulse) := by
  simp [DecoderInv, PhaseInv, FrameInv, clearedDecoder]

theorem decoderReset_decoderInv (c : Config) (d : DecoderState) : DecoderInv c (decoderReset d) := by
  rw [decoderReset_eq_clearedDecoder]
  exact clearedDecoder_decoderInv c d.pulseInProgress

theorem acceptLeader_decoderInv (c : Config) (d : DecoderState) : DecoderInv c (acceptLeader d) := by
  simp [DecoderInv, PhaseInv, FrameInv]

/-- In RECEIVING what the invariant asks is the range of the bit count, and what R46 says of the flag and the ticks. -/
theorem decoderInv_of_receiving {c : Config} {d : DecoderState} (hphase : d.phase = .receiving)
    (hpos : 1 ≤ d.bitCount.toNat) (hle : d.bitCount.toNat ≤ 32) (hframe : FrameInv c d) : DecoderInv c d := by
  simp [DecoderInv, PhaseInv, hphase, hpos, hle, hframe]

theorem acceptBit_bitCount_toNat (b : Bool) {d : DecoderState} (h : d.bitCount.toNat < 32) :
    (acceptBit b d).bitCount.toNat = d.bitCount.toNat + 1 := by
  rw [acceptBit_bitCount]
  bv_omega

/-- The flag is set by the bit that makes 32 and was clear before it; the ticks, untouched, stay below the ceiling. -/
theorem acceptBit_decoderInv {c : Config} {d : DecoderState} (b : Bool) (h : DecoderInv c d)
    (hroom : d.bitCount.toNat < 32) : DecoderInv c (acceptBit b d) := by
  obtain ⟨-, hready, hceiling, hpartial⟩ := h
  have hcount := acceptBit_bitCount_toNat b hroom
  have hclear : d.frameReady = false := by
    rw [Bool.eq_false_iff, ne_eq, hready]
    omega
  refine decoderInv_of_receiving rfl (by omega) (by omega) ⟨?_, hceiling, fun _ => hpartial hroom⟩
  rw [hcount, acceptBit_frameReady, hclear, Bool.false_or, decide_eq_true_iff]
  rfl

theorem acceptRepeat_decoderInv {c : Config} {d : DecoderState} (h : DecoderInv c d)
    (hphase : d.phase = .receiving) : DecoderInv c (acceptRepeat c d) := by
  obtain ⟨⟨-, -, hreceiving, -⟩, hready, -, -⟩ := h
  obtain ⟨hpos, hle⟩ := hreceiving.1 hphase
  exact decoderInv_of_receiving hphase hpos hle ⟨hready, by simp, by simp⟩

theorem tickTracked_decoderInv {c : Config} {d : DecoderState} (h : DecoderInv c d)
    (hfull : d.bitCount.toNat = 32) : DecoderInv c (tickTracked c d) := by
  obtain ⟨⟨-, -, hreceiving, -⟩, -, -, -⟩ := h
  have hphase : d.phase = .receiving := hreceiving.2 (by omega)
  refine decoderInv_of_receiving hphase (by simp [hfull]) (by simp [hfull]) ⟨by simp [hfull], ?_, by simp [hfull]⟩
  rw [tickTracked_watchdogTicks, saturatingInc_toNat]
  omega

/-- Below the ceiling one more tick leaves the count below it. -/
theorem tickPartial_decoderInv {c : Config} {d : DecoderState} (h : DecoderInv c d) (hphase : d.phase ≠ .idle)
    (hbelow : d.watchdogTicks.toNat + 1 < c.wdtCeiling.toNat) : DecoderInv c (tickPartial d) := by
  obtain ⟨⟨-, hleader, hreceiving, hle⟩, hready, -, -⟩ := h
  have hticks := tickPartial_watchdogTicks_toNat hbelow
  exact ⟨⟨fun hidle => absurd hidle hphase, hleader, hreceiving, hle⟩, hready, by omega, fun _ => by omega⟩

theorem fallingEdge_decoderInv {c : Config} {d : DecoderState} (ts : Micros) (h : DecoderInv c d) :
    DecoderInv c (fallingEdge c ts d) := by
  obtain ⟨-, -, heq⟩ | ⟨b, -, -, hroom, heq⟩ | ⟨-, hphase, heq⟩ | heq := fallingEdge_cases c ts d <;>
    rw [heq, decoderInv_pulseInProgress]
  · exact acceptLeader_decoderInv c d
  · exact acceptBit_decoderInv b h hroom
  · exact acceptRepeat_decoderInv h hphase
  · exact h

theorem watchdogTick_decoderInv {c : Config} {d : DecoderState} (h : DecoderInv c d) :
    DecoderInv c (watchdogTick c d).1 := by
  obtain ⟨-, heq⟩ | ⟨-, hfull, heq⟩ | ⟨-, -, -, heq⟩ | ⟨hphase, -, hbelow, heq⟩ :=
    watchdogTick_cases c d <;> rw [heq]
  · exact h
  · exact tickTracked_decoderInv h hfull
  · exact decoderReset_decoderInv c d
  · exact tickPartial_decoderInv h hphase hbelow

theorem readKey_decoderInv {c : Config} {d : DecoderState} (h : DecoderInv c d) : DecoderInv c (readKey c d).2 := by
  obtain heq | heq := readKey_decoder_cases c d <;> rw [heq]
  · exact h
  · exact decoderReset_decoderInv c d

theorem decoderAfter_decoderInv (i : Instr) {s : State} (h : DecoderInv s.cfg s.decoder) :
    DecoderInv s.cfg (decoderAfter i s) := by
  cases i with
  | rise ts => exact (decoderInv_pulseInProgress s.cfg s.decoder true).2 h
  | fall ts => exact fallingEdge_decoderInv ts h
  | wtick => exact watchdogTick_decoderInv h
  | keyrd | poll => exact readKey_decoderInv h
  | reset => exact clearedDecoder_decoderInv s.cfg false
  | ptick | dbstep _ | setduty _ | seten _ _ => exact h

/-! The debouncer (10_state.md R48). -/

theorem reset_debounceInv (c : Config) : DebounceInv c DebounceState.reset := by
  simp [DebounceInv, DebounceState.reset]

theorem newKey_debounceInv (c : Config) (k : Byte) : DebounceInv c (newKey c k) := by
  simp [DebounceInv]

theorem settle_debounceInv {c : Config} {b : DebounceState} (h : DebounceInv c b) : DebounceInv c (settle b) := by
  obtain ⟨htimer, hnone, hlisted⟩ := h
  refine ⟨?_, hnone, hlisted⟩
  rw [settle_debounceTimer, stoppingDec_toNat]
  omega

/-- A repeat reloads the count below the threshold, as R10 asks of the reload value; any other HOLD of a listed key
stops short of the threshold. -/
theorem hold_debounceInv {c : Config} {k : Byte} {b : DebounceState}
    (hreload : c.repeatReload.toNat < c.holdThreshold.toNat) (h : DebounceInv c b) (hk : k = b.lastKey)
    (hk0 : k ≠ 0) : DebounceInv c (hold c k b).1 := by
  subst hk
  obtain ⟨htimer, -, -⟩ := h
  obtain ⟨-, -, heq⟩ | ⟨hshort, heq⟩ := hold_cases c b.lastKey b <;> rw [heq]
  · exact ⟨htimer, fun h0 => absurd h0 hk0, fun _ => Nat.le_sub_one_of_lt hreload⟩
  · refine ⟨htimer, fun h0 => absurd h0 hk0, fun hlisted => ?_⟩
    have hbelow : min (b.repeatCount.toNat + 1) 255 < c.holdThreshold.toNat :=
      not_le.1 fun hle => hshort ⟨hlisted, hle⟩
    rw [saturatingInc_toNat]
    exact Nat.le_sub_one_of_lt hbelow

theorem debounce_debounceInv {c : Config} (k : Byte) {b : DebounceState}
    (hreload : c.repeatReload.toNat < c.holdThreshold.toNat) (h : DebounceInv c b) :
    DebounceInv c (debounce c k b).1 := by
  obtain ⟨-, heq⟩ | ⟨-, -, -, heq⟩ | ⟨hk, hk0, -, heq⟩ | ⟨-, -, heq⟩ := debounce_cases c k b <;> rw [heq]
  · exact newKey_debounceInv c k
  · exact settle_debounceInv h
  · exact hold_debounceInv hreload h hk hk0
  · exact settle_debounceInv h

theorem debouncerAfter_debounceInv (i : Instr) {s : State}
    (hreload : s.cfg.repeatReload.toNat < s.cfg.holdThreshold.toNat) (h : DebounceInv s.cfg s.debouncer) :
    DebounceInv s.cfg (debouncerAfter i s) := by
  cases i with
  | dbstep k => exact debounce_debounceInv k hreload h
  | poll => exact debounce_debounceInv (readKey s.cfg s.decoder).1 hreload h
  | reset => exact reset_debounceInv s.cfg
  | rise _ | fall _ | wtick | ptick | keyrd | setduty _ | seten _ _ => exact h

/-! The PWM engine (10_state.md R49, and the form of its flag banks). -/

theorem reset_pwmInv (n : Nat) : PwmInv (PwmState.reset n) := by
  simp [PwmInv, PwmState.reset]

theorem pwmAfter_pwmInv (i : Instr) {s : State} (h : PwmInv s.pwm) : PwmInv (pwmAfter i s) := by
  obtain ⟨hcounter, hduty⟩ := h
  cases i with
  | ptick =>
    refine ⟨?_, hduty⟩
    have hnext := advanceCounter_toNat s.pwm.counter
    simp only [pwmAfter, pwmTick_counter]
    omega
  | setduty v =>
    refine ⟨hcounter, ?_⟩
    have hclamp := clampDuty_toNat (dutyInteger v)
    simp only [pwmAfter]
    omega
  | seten ch en =>
    exact ⟨by rwa [pwmAfter, setChannel_counter], by rwa [pwmAfter, setChannel_dutyLevel]⟩
  | reset => exact reset_pwmInv s.cfg.nChannels
  | rise _ | fall _ | wtick | keyrd | dbstep _ | poll => exact ⟨hcounter, hduty⟩

theorem reset_channelForm (c : Config) : ChannelForm c (PwmState.reset c.nChannels) := by
  simp [ChannelForm, PwmState.reset]

theorem pwmAfter_channelForm (i : Instr) {s : State} (h : ChannelForm s.cfg s.pwm) :
    ChannelForm s.cfg (pwmAfter i s) := by
  obtain ⟨henabled, hactive⟩ := h
  cases i with
  | ptick => exact ⟨henabled, by simp [pwmAfter]⟩
  | seten ch en =>
    exact ⟨by rwa [pwmAfter, setChannel_enabled_length], by rwa [pwmAfter, setChannel_active]⟩
  | reset => exact reset_channelForm s.cfg
  | rise _ | fall _ | wtick | keyrd | dbstep _ | poll | setduty _ => exact ⟨henabled, hactive⟩

/-! The whole block. -/

/-- Settles O45: the reset values meet the invariants whatever the parameters are. -/
theorem invariantsHoldAfterBoot : Obligations.InvariantsHoldAfterBoot := by
  intro c ops _
  exact ⟨clearedDecoder_decoderInv c false, reset_debounceInv c, reset_pwmInv c.nChannels⟩

/-- Settles O46: each engine's invariant is kept by what an operation makes of that engine; that the configuration is
legal, which a step that answers a next state has checked, is needed for the debouncer alone. -/
theorem everyStepKeepsTheInvariants : Obligations.EveryStepKeepsTheInvariants := by
  intro s t hinv hstep
  obtain ⟨hlegal, hcfg, -, hregisters⟩ := step_next_registers hstep
  obtain ⟨-, -, -, -, -, -, hreload, -⟩ := (check_eq_none_iff s.cfg).1 hlegal
  obtain ⟨hdec, hdeb, hpwm⟩ := hinv
  unfold BlockInv
  rw [hcfg]
  obtain ⟨hd, hb, hp⟩ | ⟨i, hd, hb, hp⟩ := hregisters <;> rw [hd, hb, hp]
  · exact ⟨hdec, hdeb, hpwm⟩
  · exact ⟨decoderAfter_decoderInv i hdec, debouncerAfter_debounceInv i hreload hdeb, pwmAfter_pwmInv i hpwm⟩

/-- Settles O47. -/
theorem everyStepKeepsTheChannelForm : Obligations.EveryStepKeepsTheChannelForm := by
  refine ⟨fun c ops => reset_channelForm c, fun s t hform hstep => ?_⟩
  obtain ⟨-, hcfg, -, hregisters⟩ := step_next_registers hstep
  rw [hcfg]
  obtain ⟨-, -, hp⟩ | ⟨i, -, -, hp⟩ := hregisters <;> rw [hp]
  · exact hform
  · exact pwmAfter_channelForm i hform

end Sys2Proof.Machine
end

section
/-! What a frame's data pulses put in the accumulator (10_state.md R47; 41_frame_assembler.md R144). -/

namespace Sys2Proof.Machine

/-- A trace performed in two parts: where the first part completes, the second goes on from the state it leaves
(20_memory.md R72). -/
theorem performAll_append {is js : List Instr} {s t : State} (h : performAll is s = .next t) :
    performAll (is ++ js) s = performAll js t := by
  induction is generalizing s with
  | nil =>
    cases h
    rfl
  | cons i is ih =>
    simp only [performAll, List.cons_append] at h ⊢
    cases hexec : exec i s with
    | next u =>
      rw [hexec] at h
      exact ih h
    | fault _ | refused _ => simp [hexec] at h

/-- `PULSE d` is a falling edge that finds the flag set (30_encoding.md R111). -/
theorem performAll_pulse (s : State) (d : Micros) :
    performAll (pulse d) s =
      .next { s with
        decoder := { assemblePulse s.cfg (classify s.cfg d) (risingEdge s.decoder) with pulseInProgress := false }
        result := .none
        event := none } := rfl

/-- A pulse of a data bit, where a bit is accepted, shifts it in (41_frame_assembler.md R144). -/
theorem performAll_pulse_of_bitClass {s : State} {d : Micros} {b : Bool} (hclass : classify s.cfg d = bitClass b)
    (hphase : s.decoder.phase ≠ .idle) (hroom : s.decoder.bitCount.toNat < 32) :
    performAll (pulse d) s =
      .next { s with
        decoder := { acceptBit b s.decoder with pulseInProgress := false }
        result := .none
        event := none } := by
  have haccepts : acceptsBit (risingEdge s.decoder) = true := (acceptsBit_iff _).2 ⟨hphase, hroom⟩
  have hassemble : assemblePulse s.cfg (bitClass b) (risingEdge s.decoder) = acceptBit b (risingEdge s.decoder) := by
    cases b <;> simp [bitClass, assemblePulse, haccepts]
  rw [performAll_pulse, hclass, hassemble]
  rfl

/-- The bit a shift brings in stands at bit 0, and every other bit moves up by one. -/
theorem acceptBit_accumulator_getLsbD (b : Bool) (d : DecoderState) {k : Nat} (hk : k < 32) :
    (acceptBit b d).accumulator.getLsbD k = if k = 0 then b else d.accumulator.getLsbD (k - 1) := by
  rw [acceptBit_accumulator]
  cases k with
  | zero => simp
  | succ k => simp [hk, BitVec.getLsbD_eq_getElem (Nat.lt_of_succ_lt hk)]

/-- What the data pulses of `bits`, sent from the state `s` with no bit in, have made of it in the state `t`. -/
structure BitsShiftedIn (bits : List Bool) (s t : State) : Prop where
  /-- The `j`-th bit sent, counted back from bit 0, which holds the last. -/
  accumulator : ∀ j < bits.length, t.decoder.accumulator.getLsbD (bits.length - 1 - j) = bits.getD j false
  bitCount : t.decoder.bitCount.toNat = bits.length
  phase : t.decoder.phase ≠ .idle
  received : bits ≠ [] → t.decoder.phase = .receiving ∧ t.decoder.pulseInProgress = false
  frameReady : bits.length = 32 → t.decoder.frameReady = true
  watchdogTicks : t.decoder.watchdogTicks = s.decoder.watchdogTicks
  repeatCounter : t.decoder.repeatCounter = s.decoder.repeatCounter
  debouncer : t.debouncer = s.debouncer
  pwm : t.pwm = s.pwm
  cfg : t.cfg = s.cfg
  opPort : t.opPort = s.opPort

theorem bitsShiftedIn_nil {s : State} (hphase : s.decoder.phase ≠ .idle) (hcount : s.decoder.bitCount = 0) :
    BitsShiftedIn [] s s where
  accumulator := by simp
  bitCount := by simp [hcount]
  phase := hphase
  received := by simp
  frameReady := by simp
  watchdogTicks := rfl
  repeatCounter := rfl
  debouncer := rfl
  pwm := rfl
  cfg := rfl
  opPort := rfl

/-- One more bit accepted after `bits`: the bits before it move up by one place. -/
theorem BitsShiftedIn.concat {bits : List Bool} {s t : State} (h : BitsShiftedIn bits s t) (b : Bool)
    (hroom : bits.length < 32) :
    BitsShiftedIn (bits ++ [b]) s
      { t with
        decoder := { acceptBit b t.decoder with pulseInProgress := false }
        result := .none
        event := none } where
  accumulator := by
    intro j hj
    rw [List.length_append, List.length_singleton] at hj ⊢
    rw [acceptBit_accumulator_getLsbD b t.decoder (by omega)]
    split
    · have hlast : j = bits.length := by omega
      simp [hlast]
    · have hearlier : j < bits.length := by omega
      rw [List.getD_append _ _ _ _ hearlier, ← h.accumulator j hearlier]
      congr 1
      omega
  bitCount := by
    have hcount := h.bitCount
    have hnext := acceptBit_bitCount_toNat b (d := t.decoder) (by omega)
    rw [List.length_append, List.length_singleton, ← hcount, ← hnext]
  phase := by simp
  received := by simp
  frameReady := by
    intro hfull
    rw [List.length_append, List.length_singleton] at hfull
    simp [h.bitCount, hfull, frameBits]
  watchdogTicks := h.watchdogTicks
  repeatCounter := h.repeatCounter
  debouncer := h.debouncer
  pwm := h.pwm
  cfg := h.cfg
  opPort := h.opPort

/-- Up to 32 data pulses, each of a length in its band, are all accepted. -/
theorem performAll_dataPulses {s : State} (bits : List (Bool × Micros)) (hphase : s.decoder.phase ≠ .idle)
    (hcount : s.decoder.bitCount = 0) (hlen : bits.length ≤ 32)
    (hclass : ∀ x ∈ bits, classify s.cfg x.2 = bitClass x.1) :
    ∃ t, performAll (bits.flatMap fun x => pulse x.2) s = .next t ∧ BitsShiftedIn (bits.map Prod.fst) s t := by
  induction bits using List.reverseRecOn with
  | nil => exact ⟨s, rfl, bitsShiftedIn_nil hphase hcount⟩
  | append_singleton bits x ih =>
    have hroom : bits.length < 32 := by simpa using hlen
    obtain ⟨t, hrun, hshifted⟩ := ih hroom.le fun y hy => hclass y (List.mem_append_left _ hy)
    have hclassLast : classify t.cfg x.2 = bitClass x.1 := by
      rw [hshifted.cfg]
      exact hclass x (by simp)
    have hpulse := performAll_pulse_of_bitClass hclassLast hshifted.phase (by simpa [hshifted.bitCount] using hroom)
    refine ⟨_, ?_, by simpa using hshifted.concat x.1 (by simpa using hroom)⟩
    simpa [performAll_append hrun] using hpulse

/-- Settles O28: 32 bits leave no bit of the accumulator's earlier content, which the last of them has pushed out. -/
theorem thirtyTwoBitsReplaceTheAccumulator : Obligations.ThirtyTwoBitsReplaceTheAccumulator := by
  intro s bits hleader hcount hlen hclass
  obtain ⟨t, hrun, h⟩ := performAll_dataPulses bits (by simp [hleader]) hcount hlen.le hclass
  have hlen' : (bits.map Prod.fst).length = 32 := by rw [List.length_map, hlen]
  obtain ⟨hreceiving, hpulse⟩ := h.received (List.ne_nil_of_length_pos (by omega))
  have hbits := h.accumulator
  rw [hlen'] at hbits
  exact ⟨t, hrun, hbits, h.bitCount.trans hlen', hreceiving, h.frameReady hlen', h.watchdogTicks, h.repeatCounter,
    hpulse, h.debouncer, h.pwm, h.cfg, h.opPort⟩

end Sys2Proof.Machine
end

section
/-! The decoder reads back what the encoder wrote (30_encoding.md R90 to R97). -/

namespace Sys2Proof

/-- Every row fixes the four opcode bits, so a word with a row's fixed bits has that row's opcode. -/
theorem rowOfOpcode_of_fixedBits {w : Word} {r : OpRow} (h : w &&& r.mask = r.matchBits) :
    rowOfOpcode (opcodeField w) = some r := by
  have hmask : opcodeField r.mask = BitVec.allOnes 4 := by cases r <;> rfl
  have hopcode : opcodeField w = opcodeField r.matchBits :=
    calc opcodeField w = opcodeField w &&& opcodeField r.mask := by rw [hmask, BitVec.and_allOnes]
      _ = opcodeField r.matchBits := by rw [← h]; exact BitVec.extractLsb'_and.symm
  rw [hopcode]
  cases r <;> rfl

/-- A word with a row's fixed bits is that row's operation, with the operands it holds (30_encoding.md R97). -/
theorem decode_of_fixedBits {w : Word} {r : OpRow} (h : w &&& r.mask = r.matchBits) :
    decode w = .ok (r.assemble w) := by
  simp only [decode, rowOfOpcode_of_fixedBits h, if_pos h]

theorem encode_fixedBits (i : Instr) : encode i &&& i.row.mask = i.row.matchBits := by
  cases i with
  | rise ts => exact Laws.EncodedFixedBits.rise ts
  | fall ts => exact Laws.EncodedFixedBits.fall ts
  | wtick => exact Laws.EncodedFixedBits.wtick
  | ptick => exact Laws.EncodedFixedBits.ptick
  | keyrd => exact Laws.EncodedFixedBits.keyrd
  | dbstep k => exact Laws.EncodedFixedBits.dbstep k
  | poll => exact Laws.EncodedFixedBits.poll
  | setduty v => exact Laws.EncodedFixedBits.setduty v
  | seten ch en => exact Laws.EncodedFixedBits.seten ch en
  | reset => exact Laws.EncodedFixedBits.reset

/-- An operand in the low bits, over fixed bits that are 0 there, is what those bits of the word hold. -/
theorem extractLsb'_or_setWidth {n : Nat} (hn : n ≤ 32) {m : Word} (hm : m.extractLsb' 0 n = 0#n) (x : BitVec n) :
    (m ||| x.setWidth 32).extractLsb' 0 n = x := by
  rw [BitVec.extractLsb'_or, hm, BitVec.zero_or, BitVec.extractLsb'_setWidth_of_le (by omega),
    BitVec.extractLsb'_eq_self]

theorem tsField_or {m : Word} (hm : tsField m = 0) (ts : Micros) : tsField (m ||| ts.setWidth 32) = ts :=
  extractLsb'_or_setWidth (by decide) hm ts

theorem byteField_or {m : Word} (hm : byteField m = 0) (k : Byte) : byteField (m ||| k.setWidth 32) = k :=
  extractLsb'_or_setWidth (by decide) hm k

theorem channelField_encode_seten (ch : Byte) (en : Bool) : channelField (encode (.seten ch en)) = ch := by
  ext i hi
  interval_cases i <;> simp [channelField, encode, Instr.row, OpRow.matchBits, operandBits]

theorem enableField_encode_seten (ch : Byte) (en : Bool) : enableField (encode (.seten ch en)) = en := by
  simp [enableField, encode, Instr.row, OpRow.matchBits, operandBits]

/-- The operands come back out of the word they were placed in (30_encoding.md R95). -/
theorem assemble_encode (i : Instr) : i.row.assemble (encode i) = i := by
  cases i with
  | rise ts => exact congrArg Instr.rise (tsField_or (m := OpRow.rise.matchBits) (by decide) ts)
  | fall ts => exact congrArg Instr.fall (tsField_or (m := OpRow.fall.matchBits) (by decide) ts)
  | dbstep k => exact congrArg Instr.dbstep (byteField_or (m := OpRow.dbstep.matchBits) (by decide) k)
  | setduty v => exact congrArg Instr.setduty (byteField_or (m := OpRow.setduty.matchBits) (by decide) v)
  | seten ch en => exact congrArg₂ Instr.seten (channelField_encode_seten ch en) (enableField_encode_seten ch en)
  | wtick | ptick | keyrd | poll | reset => rfl

theorem decode_encode (i : Instr) : decode (encode i) = .ok i := by
  rw [decode_of_fixedBits (encode_fixedBits i), assemble_encode]

theorem tableWord_toNat (w : Word) : tableWord 32 w.toNat = w := by
  rw [tableWord, Nat.mod_eq_of_lt w.isLt, BitVec.ofNat_toNat, BitVec.setWidth_eq]

end Sys2Proof
end

section
/-! What a step does with the levels of the operation port (20_memory.md R63). -/

namespace Sys2Proof.Machine

theorem legal_iff_check_eq_none (c : Config) : c.legal = true ↔ c.check = none := Option.isNone_iff_eq_none

/-- Nothing is presented exactly when the next levels, if there are any, have `op_valid` = 0. -/
theorem presented_eq_none_iff (s : State) : presented s = none ↔ ∀ p ∈ s.opPort.head?, p.opValid = false := by
  cases h : s.opPort with
  | nil => simp [presented, h]
  | cons p rest => simp [presented_cons s p rest h]

theorem step_of_presented {s : State} {w : Word} {i : Instr} (hlegal : s.cfg.legal = true)
    (hpresented : presented s = some w) (hdecode : decode w = .ok i) : step s = exec i (taken s) := by
  simp only [step, (legal_iff_check_eq_none s.cfg).1 hlegal, hpresented, perform, hdecode]

theorem step_of_nothing_presented {s : State} (hlegal : s.cfg.legal = true) (hpresented : presented s = none) :
    step s = idleStep s := by
  simp only [step, (legal_iff_check_eq_none s.cfg).1 hlegal, hpresented]

/-- Settles O6. -/
theorem stepPerformsThePresentedOperation : Obligations.StepPerformsThePresentedOperation := by
  intro s w rest i hlegal hport hdecode
  have hpresented : presented s = some w := presented_cons s _ rest hport
  have htaken : taken s = { s with opPort := rest } := by rw [taken, hport, List.tail_cons]
  rw [step_of_presented hlegal hpresented hdecode, htaken]

/-- Settles O7: the placed word is the operation's own encoding, which decodes to it, and taking it off the port
leaves what was to follow. -/
theorem storedEncodingIsPerformedNext : Obligations.StoredEncodingIsPerformedNext := by
  intro s i hlegal
  rw [State.withFetchWord, tableWord_toNat]
  exact step_of_presented (s := presentNext (encode i) s) hlegal (presented_presentNext _ s) (decode_encode i)

/-- Settles O8. -/
theorem stepWithNothingPresentedIsIdle : Obligations.StepWithNothingPresentedIsIdle := by
  intro s hlegal hport
  exact step_of_nothing_presented hlegal ((presented_eq_none_iff s).2 hport)

end Sys2Proof.Machine
end

section
/-! Operations in either order (20_memory.md R78, R79): every operation answers, each engine's registers are computed
from few others, and operations on different engines do not write what the other reads. -/

namespace Sys2Proof.Machine

/-! The state an operation leaves, its two ports included. -/

/-- What an operation shows on the result port (20_memory.md R67). -/
def resultAfter : Instr → State → Result
  | .wtick, s => (watchdogTick s.cfg s.decoder).2
  | .keyrd, s | .poll, s => .key (readKey s.cfg s.decoder).1
  | .rise _, _ | .fall _, _ | .ptick, _ | .dbstep _, _ | .setduty _, _ | .seten _ _, _ | .reset, _ => .none

/-- What an operation shows on the dispatch port (20_memory.md R68). -/
def eventAfter : Instr → State → Option Event
  | .dbstep k, s => (debounce s.cfg k s.debouncer).2
  | .poll, s => (debounce s.cfg (readKey s.cfg s.decoder).1 s.debouncer).2
  | .rise _, _ | .fall _, _ | .wtick, _ | .ptick, _ | .keyrd, _ | .setduty _, _ | .seten _ _, _ | .reset, _ => none

/-- The whole state an operation leaves. -/
def stateAfter (i : Instr) (s : State) : State where
  cfg := s.cfg
  decoder := decoderAfter i s
  debouncer := debouncerAfter i s
  pwm := pwmAfter i s
  opPort := s.opPort
  result := resultAfter i s
  event := eventAfter i s

theorem exec_eq_stateAfter (i : Instr) (s : State) : exec i s = .next (stateAfter i s) := by
  cases i <;> rfl

/-- Settles O11. -/
theorem everyOperationCompletesInEveryState : Obligations.EveryOperationCompletesInEveryState :=
  fun i s => ⟨stateAfter i s, exec_eq_stateAfter i s⟩

/-! What each part of that state is computed from. -/

theorem decoderAfter_congr (i : Instr) {s t : State} (hcfg : s.cfg = t.cfg) (hdecoder : s.decoder = t.decoder) :
    decoderAfter i s = decoderAfter i t := by
  cases i <;> simp only [decoderAfter, hcfg, hdecoder]

theorem resultAfter_congr (i : Instr) {s t : State} (hcfg : s.cfg = t.cfg) (hdecoder : s.decoder = t.decoder) :
    resultAfter i s = resultAfter i t := by
  cases i <;> simp only [resultAfter, hcfg, hdecoder]

theorem debouncerAfter_congr (i : Instr) {s t : State} (hcfg : s.cfg = t.cfg) (hdecoder : s.decoder = t.decoder)
    (hdebouncer : s.debouncer = t.debouncer) : debouncerAfter i s = debouncerAfter i t := by
  cases i <;> simp only [debouncerAfter, hcfg, hdecoder, hdebouncer]

theorem eventAfter_congr (i : Instr) {s t : State} (hcfg : s.cfg = t.cfg) (hdecoder : s.decoder = t.decoder)
    (hdebouncer : s.debouncer = t.debouncer) : eventAfter i s = eventAfter i t := by
  cases i <;> simp only [eventAfter, hcfg, hdecoder, hdebouncer]

theorem pwmAfter_congr (i : Instr) {s t : State} (hcfg : s.cfg = t.cfg) (hpwm : s.pwm = t.pwm) :
    pwmAfter i s = pwmAfter i t := by
  cases i <;> simp only [pwmAfter, hcfg, hpwm]

/-! What the operations of one engine leave of the others. -/

theorem pwmOperation_leaves_keyChain {p : Instr} (h : pwmOperation p = true) (s : State) :
    decoderAfter p s = s.decoder ∧ debouncerAfter p s = s.debouncer := by
  cases p with
  | ptick | setduty _ | seten _ _ => exact ⟨rfl, rfl⟩
  | rise _ | fall _ | wtick | keyrd | dbstep _ | poll | reset => exact nomatch h

theorem keyOperation_leaves_pwm {k : Instr} (h : keyOperation k = true) (s : State) : pwmAfter k s = s.pwm := by
  cases k with
  | rise _ | fall _ | wtick | keyrd | dbstep _ | poll => rfl
  | ptick | setduty _ | seten _ _ | reset => exact nomatch h

/-- Settles O48: the PWM operation leaves all that the key operation reads, and the key operation leaves all that the
PWM operation reads. -/
theorem pwmCommutesWithTheKeyChain : Obligations.PwmCommutesWithTheKeyChain := by
  intro p k s hp hk
  obtain ⟨hdecoder, hdebouncer⟩ := pwmOperation_leaves_keyChain hp s
  obtain ⟨hdecoderLast, hdebouncerLast⟩ := pwmOperation_leaves_keyChain hp (stateAfter k s)
  have hpwm := keyOperation_leaves_pwm hk s
  have hpwmLast := keyOperation_leaves_pwm hk (stateAfter p s)
  have sameDecoder : decoderAfter k (stateAfter p s) = decoderAfter k s := decoderAfter_congr k rfl hdecoder
  have sameDebouncer : debouncerAfter k (stateAfter p s) = debouncerAfter k s :=
    debouncerAfter_congr k rfl hdecoder hdebouncer
  have samePwm : pwmAfter p (stateAfter k s) = pwmAfter p s := pwmAfter_congr p rfl hpwm
  exact ⟨_, _, _, _, exec_eq_stateAfter p s, exec_eq_stateAfter k _, exec_eq_stateAfter k s, exec_eq_stateAfter p _,
    ⟨rfl, sameDecoder.trans hdecoderLast.symm, sameDebouncer.trans hdebouncerLast.symm, hpwmLast.trans samePwm.symm,
      rfl⟩,
    resultAfter_congr k rfl hdecoder, eventAfter_congr k rfl hdecoder hdebouncer⟩

/-- Settles O49: the edges and the watchdog tick read and write the decoder alone, of which `DBSTEP` reads and writes
nothing. -/
theorem debouncerStepCommutesWithInterrupts : Obligations.DebouncerStepCommutesWithInterrupts := by
  intro k i s hi
  refine ⟨_, _, _, _, exec_eq_stateAfter (.dbstep k) s, exec_eq_stateAfter i _, exec_eq_stateAfter i s,
    exec_eq_stateAfter (.dbstep k) _, ?_⟩
  have hdecoder : decoderAfter i (stateAfter (.dbstep k) s) = decoderAfter i s := decoderAfter_congr i rfl rfl
  obtain ⟨ts, rfl⟩ | ⟨ts, rfl⟩ | rfl := hi <;> exact ⟨⟨rfl, hdecoder, rfl, rfl, rfl⟩, rfl, rfl⟩

end Sys2Proof.Machine
end

section
/-! Decoding is matching a row, and the matched word is the encoding of what it decodes to (30_encoding.md R90 to R97).
The fixed bits of a word give its row, and its other bits are the operands in their places. -/

namespace Sys2Proof

/-- No word has the fixed bits of two rows: both rows are the one of its opcode (30_encoding.md R97). -/
theorem row_unique {w : Word} {r q : OpRow} (hr : w &&& r.mask = r.matchBits) (hq : w &&& q.mask = q.matchBits) :
    r = q :=
  Option.some.inj ((rowOfOpcode_of_fixedBits hr).symm.trans (rowOfOpcode_of_fixedBits hq))

theorem decode_eq_ok_iff (w : Word) (i : Instr) :
    decode w = .ok i ↔ ∃ r : OpRow, w &&& r.mask = r.matchBits ∧ i = r.assemble w := by
  constructor
  · intro h
    unfold decode at h
    cases hrow : rowOfOpcode (opcodeField w) with
    | none => simp [hrow] at h
    | some r =>
      by_cases hfixed : w &&& r.mask = r.matchBits
      · simp only [hrow, if_pos hfixed, Except.ok.injEq] at h
        exact ⟨r, hfixed, h.symm⟩
      · simp [hrow, hfixed] at h
  · rintro ⟨r, hfixed, rfl⟩
    exact decode_of_fixedBits hfixed

/-- Settles O1: a row that matches is the row of the word's opcode. -/
theorem decodingFollowsTheOneMatchingRow : Obligations.DecodingFollowsTheOneMatchingRow :=
  ⟨decode_eq_ok_iff, fun _ _ _ => row_unique⟩

/-- Settles O2. -/
theorem decodeOfEncodeIsTheOperation : Obligations.DecodeOfEncodeIsTheOperation := decode_encode

/-- The low `n` bits of a word, put back in their place, are the word with its other bits cleared. -/
theorem setWidth_extractLsb'_zero (n : Nat) (w : Word) :
    (w.extractLsb' 0 n).setWidth 32 = w &&& (BitVec.allOnes n).setWidth 32 := by
  ext i hi
  simp [hi, Bool.and_comm]

/-- The two fields of format C are the bits that `0x0000FF01` keeps (30_encoding.md R94). -/
theorem operandBits_seten_fields (w : Word) :
    operandBits (.seten (channelField w) (enableField w)) = w &&& 0x0000FF01 := by
  ext i hi
  interval_cases i <;> simp [operandBits, channelField, enableField]

/-- The operands a row extracts from a word, put back in their places, are the bits its mask leaves free. -/
theorem operandBits_assemble (r : OpRow) (w : Word) : operandBits (r.assemble w) = w &&& ~~~r.mask := by
  cases r with
  | rise | fall => exact setWidth_extractLsb'_zero 16 w
  | dbstep | setduty => exact setWidth_extractLsb'_zero 8 w
  | seten => exact operandBits_seten_fields w
  | wtick | ptick | keyrd | poll | reset => exact BitVec.and_zero.symm

theorem row_assemble (r : OpRow) (w : Word) : (r.assemble w).row = r := by cases r <;> rfl

theorem and_or_and_not (w m : Word) : (w &&& m) ||| (w &&& ~~~m) = w := by
  ext i hi
  cases hm : m[i] <;> simp [hm]

/-- A word with a row's fixed bits is the encoding of the operation it holds. -/
theorem encode_assemble {w : Word} {r : OpRow} (h : w &&& r.mask = r.matchBits) : encode (r.assemble w) = w := by
  rw [encode, row_assemble, operandBits_assemble, ← h, and_or_and_not]

/-- Settles O3: the word is the fixed bits of the row it matches and the operands in the bits left free. -/
theorem encodeOfDecodeIsTheWord : Obligations.EncodeOfDecodeIsTheWord := by
  intro w i h
  obtain ⟨r, hfixed, rfl⟩ := (decode_eq_ok_iff w i).1 h
  exact encode_assemble hfixed

/-- Settles O4: each word has the fixed bits of its row and the listed operands. -/
theorem specWordsDecodeToTheirOperations : Obligations.SpecWordsDecodeToTheirOperations :=
  ⟨decode_of_fixedBits (r := .rise) (by decide), decode_of_fixedBits (r := .fall) (by decide),
    decode_of_fixedBits (r := .wtick) (by decide), decode_of_fixedBits (r := .ptick) (by decide),
    decode_of_fixedBits (r := .keyrd) (by decide), decode_of_fixedBits (r := .dbstep) (by decide),
    decode_of_fixedBits (r := .poll) (by decide), decode_of_fixedBits (r := .setduty) (by decide),
    decode_of_fixedBits (r := .seten) (by decide), decode_of_fixedBits (r := .seten) (by decide),
    decode_of_fixedBits (r := .reset) (by decide)⟩

end Sys2Proof
end

section
/-! Reserved words (30_encoding.md R96). -/

namespace Sys2Proof

theorem opcodeField_toNat (w : Word) : (opcodeField w).toNat = w.toNat / 2 ^ 28 := by
  have hw := w.isLt
  rw [opcodeField, BitVec.extractLsb'_toNat, Nat.shiftRight_eq_div_pow]
  omega

/-- The opcodes that the map of R90 leaves out. -/
theorem rowOfOpcode_eq_none_iff (op : BitVec 4) : rowOfOpcode op = none ↔ op.toNat = 0 ∨ 11 ≤ op.toNat := by
  revert op
  decide

/-- How the decoder rejects a word that matches no row: by its opcode where that has no row, else by its fixed bits. -/
theorem decode_of_no_row {w : Word} (h : ∀ r : OpRow, w &&& r.mask ≠ r.matchBits) :
    decode w =
      .error (if w.toNat / 2 ^ 28 = 0 ∨ 11 ≤ w.toNat / 2 ^ 28 then .reservedOpcode else .mustBeZero) := by
  simp only [← opcodeField_toNat, ← rowOfOpcode_eq_none_iff, decode]
  cases hrow : rowOfOpcode (opcodeField w) with
  | none => rfl
  | some r => simp [h r]

end Sys2Proof

namespace Sys2Proof.Machine

theorem step_of_reserved {s : State} {w : Word} {e : DecodeError} (hlegal : s.cfg.legal = true)
    (hpresented : presented s = some w) (hdecode : decode w = .error e) : step s = refuseReserved w e := by
  simp only [step, (legal_iff_check_eq_none s.cfg).1 hlegal, hpresented, perform, hdecode]

/-- Settles O5: the step passes on the name under which the decoder rejects the word. -/
theorem reservedWordIsRefused : Obligations.ReservedWordIsRefused := by
  intro s w rest hlegal hport hreserved
  have hstep := step_of_reserved hlegal (presented_cons s _ rest hport) (decode_of_no_row hreserved)
  rw [hstep]
  split <;> rfl

end Sys2Proof.Machine
end

section
/-! A frame on the wire: what its pulses leave in an idle decoder, and what a key read makes of it
(30_encoding.md R104, R105, R111; 42_frame_validator.md R172 to R178). -/

namespace Sys2Proof.Machine

/-! The validator in the terms of the statements. -/

/-- A byte and its complement add up to 255. -/
theorem eq_not_iff_add (a b : Byte) : a = ~~~b ↔ a.toNat + b.toNat = 255 := by
  have ha := a.isLt
  have hb := b.isLt
  rw [← BitVec.toNat_inj, BitVec.toNat_not]
  omega

/-- The byte of a word that begins at bit `k`, as a number. -/
theorem extractLsb'_byte_toNat (w : Word) (k : Nat) : (w.extractLsb' k 8).toNat = w.toNat / 2 ^ k % 256 := by
  rw [BitVec.extractLsb'_toNat, Nat.shiftRight_eq_div_pow]

/-- `VALIDATE` accepts a frame exactly when its sums are right (42_frame_validator.md R172). -/
theorem validate_valid_iff_validFrameFor (w : Word) (id : Byte) :
    (validate w id).valid = true ↔ ValidFrameFor id w := by
  have hw := w.isLt
  rw [validate_valid, eq_not_iff_add, eq_not_iff_add, ← BitVec.toNat_inj (y := id)]
  simp only [extractLsb'_byte_toNat, ValidFrameFor]
  omega

theorem extractLsb'_eq_commandOf (w : Word) : w.extractLsb' 8 8 = commandOf w := by
  rw [← BitVec.toNat_inj, extractLsb'_byte_toNat, commandOf, BitVec.toNat_ofNat]

/-- A ready frame that is not valid for this device is answered as no key and dropped (42_frame_validator.md R176). -/
theorem readKey_of_invalid {c : Config} {d : DecoderState} (hready : d.frameReady = true)
    (hinvalid : ¬ValidFrameFor c.deviceId d.accumulator) : readKey c d = (0, decoderReset d) := by
  have hvalidate : (validate d.accumulator c.deviceId).valid = false := by
    rwa [← Bool.not_eq_true, validate_valid_iff_validFrameFor]
  simp [readKey, hready, hvalidate]

/-- A ready valid frame below the ceiling is answered by its command and kept (42_frame_validator.md R178). -/
theorem readKey_of_valid {c : Config} {d : DecoderState} (hready : d.frameReady = true)
    (hvalid : ValidFrameFor c.deviceId d.accumulator) (hticks : d.watchdogTicks.toNat < c.wdtCeiling.toNat) :
    readKey c d = (commandOf d.accumulator, d) := by
  have hvalidate := (validate_valid_iff_validFrameFor d.accumulator c.deviceId).2 hvalid
  have hexpired : expired c d = false := by simpa [expired] using hticks
  simp [readKey, hready, hvalidate, hexpired, validate_code hvalidate, extractLsb'_eq_commandOf]

/-! The pulses of a frame. -/

/-- The length of a data bit's pulse (30_encoding.md R111). -/
def bitLength (b : Bool) : Micros := if b then 1680 else 560

theorem dataPulse_eq_pulse : dataPulse = fun b => pulse (bitLength b) := by
  funext b
  cases b <;> rfl

theorem classify_leader_of_sourceBands {c : Config} (h : SourceBands c) : classify c 4500 = .leader := by
  obtain ⟨hleader, -, -, -, hclosed⟩ := h
  simp [classify, inBand, microseconds, hleader, hclosed]

theorem classify_bitLength_of_sourceBands {c : Config} (h : SourceBands c) (b : Bool) :
    classify c (bitLength b) = bitClass b := by
  obtain ⟨hleader, hzero, hone, -, hclosed⟩ := h
  cases b <;> simp [classify, inBand, microseconds, bitLength, bitClass, hleader, hzero, hone, hclosed]

theorem wireBits_length (w : Word) : (wireBits w).length = 32 := by simp [wireBits, frameBits]

theorem wireBits_getD (w : Word) {j : Nat} (hj : j < 32) : (wireBits w).getD j false = w.getLsbD (31 - j) := by
  simp [wireBits, frameBits, hj]

/-- The bits sent determine the word, the first being bit 31 (30_encoding.md R104). -/
theorem eq_of_wireBits {a w : Word} (h : ∀ j < 32, a.getLsbD (31 - j) = (wireBits w).getD j false) : a = w := by
  refine BitVec.eq_of_getLsbD_eq fun k hk => ?_
  have hbit := (h (31 - k) (by omega)).trans (wireBits_getD w (by omega))
  rwa [show 31 - (31 - k) = k by omega] at hbit

/-- The leader is accepted by an idle decoder (41_frame_assembler.md R142). -/
theorem performAll_leaderPulse {s : State} (hbands : SourceBands s.cfg) (hidle : s.decoder.phase = .idle) :
    performAll leaderPulse s =
      .next { s with
        decoder := { acceptLeader s.decoder with pulseInProgress := false }
        result := .none
        event := none } := by
  have hassemble : assemblePulse s.cfg .leader (risingEdge s.decoder) = acceptLeader (risingEdge s.decoder) :=
    if_pos hidle
  rw [leaderPulse, performAll_pulse, classify_leader_of_sourceBands hbands, hassemble]
  rfl

/-- The decoder once the frame `w` has arrived and nothing has happened since. -/
def arrivedFrame (w : Word) : DecoderState where
  phase := .receiving
  bitCount := 32
  accumulator := w
  watchdogTicks := 0
  pulseInProgress := false
  frameReady := true
  repeatCounter := 0

/-- The data pulses of a frame after its leader: the bits sent make the frame, and the counts stay as the leader left
them. -/
theorem performAll_wireBits {s : State} (w : Word) (hbands : SourceBands s.cfg) (hphase : s.decoder.phase = .leaderSeen)
    (hcount : s.decoder.bitCount = 0) (hticks : s.decoder.watchdogTicks = 0) (hrepeat : s.decoder.repeatCounter = 0) :
    ∃ t, performAll ((wireBits w).flatMap dataPulse) s = .next t ∧ t.decoder = arrivedFrame w ∧
      t.debouncer = s.debouncer ∧ t.pwm = s.pwm ∧ t.cfg = s.cfg ∧ t.opPort = s.opPort := by
  obtain ⟨t, hrun, haccumulator, hbitCount, hreceiving, hready, hticks', hrepeat', hpulse, hunchanged⟩ :=
    thirtyTwoBitsReplaceTheAccumulator s ((wireBits w).map fun b => (b, bitLength b)) hphase hcount
      (by rw [List.length_map, wireBits_length])
      (by simpa using fun b _ => classify_bitLength_of_sourceBands hbands b)
  have hsent : ((wireBits w).map fun b => (b, bitLength b)).map Prod.fst = wireBits w := by simp [Function.comp_def]
  have hword : t.decoder.accumulator = w := eq_of_wireBits (by rwa [hsent] at haccumulator)
  have hfull : t.decoder.bitCount = 32 := BitVec.eq_of_toNat_eq hbitCount
  refine ⟨t, by rwa [List.flatMap_map, ← dataPulse_eq_pulse] at hrun, ?_, hunchanged⟩
  calc t.decoder
      = ⟨t.decoder.phase, t.decoder.bitCount, t.decoder.accumulator, t.decoder.watchdogTicks,
          t.decoder.pulseInProgress, t.decoder.frameReady, t.decoder.repeatCounter⟩ := rfl
    _ = arrivedFrame w := by
      rw [hreceiving, hfull, hword, hticks', hticks, hpulse, hready, hrepeat', hrepeat, arrivedFrame]

/-- The wire form of a frame, sent to an idle decoder, leaves exactly that frame tracked, with nothing left of what the
registers held before. -/
theorem performAll_framePulses {s : State} (w : Word) (hbands : SourceBands s.cfg) (hidle : s.decoder.phase = .idle) :
    ∃ t, performAll (framePulses w) s = .next t ∧ t.decoder = arrivedFrame w ∧
      t.debouncer = s.debouncer ∧ t.pwm = s.pwm ∧ t.cfg = s.cfg ∧ t.opPort = s.opPort := by
  rw [framePulses, performAll_append (performAll_leaderPulse hbands hidle)]
  exact performAll_wireBits w hbands rfl rfl rfl rfl

/-- Settles O29: the frame arrives with no watchdog tick counted, so the read finds it below the ceiling. -/
theorem everyFrameArrivesAndIsRead : Obligations.EveryFrameArrivesAndIsRead := by
  intro s w hbands hceiling hidle
  obtain ⟨t, hrun, hdecoder, hdebouncer, hpwm, hcfg, hport⟩ := performAll_framePulses w hbands hidle
  have hready : t.decoder.frameReady = true := by rw [hdecoder]; rfl
  have haccumulator : t.decoder.accumulator = w := by rw [hdecoder]; rfl
  refine ⟨t, hrun, hdecoder, hdebouncer, hpwm, hcfg, hport, _, exec_keyrd t, fun hvalid => ?_, fun hinvalid => ?_⟩
  · have hticks : t.decoder.watchdogTicks.toNat < t.cfg.wdtCeiling.toNat := by rwa [hcfg, hdecoder]
    have hread := readKey_of_valid hready (by rwa [hcfg, haccumulator]) hticks
    rw [hread, haccumulator]
    exact ⟨rfl, rfl⟩
  · have hread := readKey_of_invalid (c := t.cfg) hready (by rwa [hcfg, haccumulator])
    rw [hread, hdecoder]
    exact ⟨rfl, rfl⟩

end Sys2Proof.Machine
end

section
/-! What `CLASSIFY` answers, in the statements' own reading of a band (40_edge_classifier.md R121, R122, R124). -/

namespace Sys2Proof.Machine

/-- R10's disjointness: no duration is in two of the four bands. -/
def BandsDisjoint (c : Config) : Prop :=
  c.bands.Pairwise fun a b => ∀ d : Micros, ¬(InBand c a d ∧ InBand c b d)

theorem bandsDisjoint_of_legal {c : Config} (h : c.legal = true) : BandsDisjoint c := by
  obtain ⟨-, hdisjoint, -⟩ := (check_eq_none_iff c).1 (Option.isNone_iff_eq_none.1 h)
  exact hdisjoint

/-- Two bands of the list that share a duration are one band. -/
theorem BandsDisjoint.eq_of_inBand {c : Config} (h : BandsDisjoint c) {a b : Band} {d : Micros} (ha : a ∈ c.bands)
    (hb : b ∈ c.bands) (hda : InBand c a d) (hdb : InBand c b d) : a = b := by
  by_contra hne
  have hsymm : Std.Symm fun x y => ∀ d : Micros, ¬(InBand c x d ∧ InBand c y d) :=
    ⟨fun _ _ hxy d hd => hxy d hd.symm⟩
  exact List.Pairwise.forall h ha hb hne d ⟨hda, hdb⟩

/-- The tests of `CLASSIFY` in their order, each with what it says of the duration. -/
theorem classify_cases (c : Config) (d : Micros) :
    (classify c d = .leader ∧ InBand c c.leaderBand d) ∨
    (classify c d = .bitZero ∧ InBand c c.bit0Band d) ∨
    (classify c d = .bitOne ∧ InBand c c.bit1Band d) ∨
    (classify c d = .repeatCode ∧ InBand c c.repeatBand d) ∨
    (classify c d = .invalid ∧ ∀ b ∈ c.bands, ¬InBand c b d) := by
  unfold classify
  split_ifs with hleader hzero hone hrepeat
  · exact .inl ⟨rfl, (inBand_iff_InBand ..).1 hleader⟩
  · exact .inr (.inl ⟨rfl, (inBand_iff_InBand ..).1 hzero⟩)
  · exact .inr (.inr (.inl ⟨rfl, (inBand_iff_InBand ..).1 hone⟩))
  · exact .inr (.inr (.inr (.inl ⟨rfl, (inBand_iff_InBand ..).1 hrepeat⟩)))
  · exact .inr (.inr (.inr (.inr ⟨rfl, by simp [Config.bands, ← inBand_iff_InBand, *]⟩)))

/-- `INVALID` needs no disjointness: it is answered when every test has failed. -/
theorem classify_eq_invalid_iff (c : Config) (d : Micros) :
    classify c d = .invalid ↔ ∀ b ∈ c.bands, ¬InBand c b d := by
  obtain ⟨hclass, hin⟩ | ⟨hclass, hin⟩ | ⟨hclass, hin⟩ | ⟨hclass, hin⟩ | ⟨hclass, hout⟩ := classify_cases c d
  case inr.inr.inr.inr => exact iff_of_true hclass hout
  all_goals exact iff_of_false (by simp [hclass]) fun hout => hout _ (by simp [Config.bands]) hin

/-- The general form of 40_edge_classifier.md R121: where the bands are disjoint, the order of the tests is not seen. -/
theorem BandsDisjoint.classify_iff {c : Config} (h : BandsDisjoint c) (d : Micros) :
    (classify c d = .leader ↔ InBand c c.leaderBand d) ∧
    (classify c d = .bitZero ↔ InBand c c.bit0Band d) ∧
    (classify c d = .bitOne ↔ InBand c c.bit1Band d) ∧
    (classify c d = .repeatCode ↔ InBand c c.repeatBand d) := by
  have hd : c.bands.Pairwise fun a b => ¬(InBand c a d ∧ InBand c b d) := h.imp fun hab => hab d
  simp only [Config.bands, List.pairwise_cons, List.forall_mem_cons] at hd
  obtain ⟨⟨hleaderZero, hleaderOne, hleaderRepeat, -⟩, ⟨hzeroOne, hzeroRepeat, -⟩, ⟨honeRepeat, -⟩, -⟩ := hd
  obtain ⟨hclass, hin⟩ | ⟨hclass, hin⟩ | ⟨hclass, hin⟩ | ⟨hclass, hin⟩ | ⟨hclass, hout⟩ := classify_cases c d
  case inr.inr.inr.inr =>
    simp only [Config.bands, List.forall_mem_cons] at hout
    simp [hclass, hout]
  all_goals
    simp only [hin, true_and, and_true] at hleaderZero hleaderOne hleaderRepeat hzeroOne hzeroRepeat honeRepeat
    simp [*]

/-- The class is a function of the bands a duration is in. -/
theorem classify_congr {c c' : Config} {a b : Micros} (hbands : c'.bands = c.bands)
    (h : ∀ x ∈ c.bands, InBand c x a ↔ InBand c' x b) : classify c a = classify c' b := by
  simp only [Config.bands, List.cons.injEq, and_true] at hbands
  obtain ⟨hleader, hzero, hone, hrepeat⟩ := hbands
  have htest : ∀ x ∈ c.bands, inBand c x a = inBand c' x b := fun x hx =>
    Bool.eq_iff_iff.2 (by rw [inBand_iff_InBand, inBand_iff_InBand, h x hx])
  simp only [Config.bands, List.forall_mem_cons] at htest
  simp only [classify, htest, hleader, hzero, hone, hrepeat]

/-- Settles O15. -/
theorem classIsTheOneBandThatHoldsTheDuration : Obligations.ClassIsTheOneBandThatHoldsTheDuration := by
  intro c d hlegal
  obtain ⟨hleader, hzero, hone, hrepeat⟩ := (bandsDisjoint_of_legal hlegal).classify_iff d
  exact ⟨hleader, hzero, hone, hrepeat, classify_eq_invalid_iff c d⟩

/-- Settles O17: `FALL` reads its timestamp only through `CLASSIFY`. -/
theorem sameClassSameFall : Obligations.SameClassSameFall := by
  intro s a b hsame
  have hclass : classify s.cfg a = classify s.cfg b := classify_congr rfl hsame
  simp only [exec_fall, fallingEdge, hclass]

/-! Opening the bands (40_edge_classifier.md R124). -/

/-- `BAND_CLOSED` withdrawn, every other parameter as it was. -/
def opened (c : Config) : Config := { c with bandClosed := false }

theorem opened_bands (c : Config) : (opened c).bands = c.bands := rfl

/-- The duration is a limit of one of the bands. -/
def IsEndPoint (c : Config) (d : Micros) : Prop :=
  ∃ b ∈ c.bands, d.toNat = b.lo.toNat ∨ d.toNat = b.hi.toNat

/-- Opening a band takes its two end-points from it and nothing else. -/
theorem inBand_opened_iff {c : Config} (hclosed : c.bandClosed = true) (b : Band) (d : Micros) :
    InBand (opened c) b d ↔ InBand c b d ∧ d.toNat ≠ b.lo.toNat ∧ d.toNat ≠ b.hi.toNat := by
  simp only [InBand, opened, hclosed, if_true, Bool.false_eq_true, if_false]
  omega

theorem inBand_of_endPoint {c : Config} {b : Band} {d : Micros} (hclosed : c.bandClosed = true)
    (hlimits : b.lo.toNat ≤ b.hi.toNat) (hend : d.toNat = b.lo.toNat ∨ d.toNat = b.hi.toNat) : InBand c b d := by
  simp only [InBand, hclosed, if_true]
  omega

/-- Away from the end-points the bands hold the same durations open and closed. -/
theorem classify_opened_of_not_isEndPoint {c : Config} {d : Micros} (hclosed : c.bandClosed = true)
    (hend : ¬IsEndPoint c d) : classify (opened c) d = classify c d := by
  refine (classify_congr (opened_bands c) fun x hx => ?_).symm
  have hlo : d.toNat ≠ x.lo.toNat := fun h => hend ⟨x, hx, .inl h⟩
  have hhi : d.toNat ≠ x.hi.toNat := fun h => hend ⟨x, hx, .inr h⟩
  simp [inBand_opened_iff hclosed, hlo, hhi]

/-- The one closed band an end-point is in is the band it leaves, so it is then in none. -/
theorem classify_opened_of_isEndPoint {c : Config} {d : Micros} (hclosed : c.bandClosed = true)
    (hlimits : ∀ b ∈ c.bands, b.lo.toNat ≤ b.hi.toNat) (hdisjoint : BandsDisjoint c) (hend : IsEndPoint c d) :
    classify (opened c) d = .invalid := by
  obtain ⟨b, hb, hd⟩ := hend
  rw [classify_eq_invalid_iff, opened_bands]
  intro x hx hin
  obtain ⟨hdx, hlo, hhi⟩ := (inBand_opened_iff hclosed x d).1 hin
  obtain rfl := hdisjoint.eq_of_inBand hb hx (inBand_of_endPoint hclosed (hlimits b hb) hd) hdx
  exact hd.elim hlo hhi

/-- The end-points are exactly the durations whose class depends on `BAND_CLOSED`. -/
theorem classify_opened_ne_iff {c : Config} (hclosed : c.bandClosed = true)
    (hlimits : ∀ b ∈ c.bands, b.lo.toNat ≤ b.hi.toNat) (hdisjoint : BandsDisjoint c) (d : Micros) :
    classify (opened c) d ≠ classify c d ↔ IsEndPoint c d := by
  constructor
  · intro hne
    by_contra hend
    exact hne (classify_opened_of_not_isEndPoint hclosed hend)
  · intro hend heq
    rw [classify_opened_of_isEndPoint hclosed hlimits hdisjoint hend, eq_comm, classify_eq_invalid_iff] at heq
    obtain ⟨b, hb, hd⟩ := hend
    exact heq b hb (inBand_of_endPoint hclosed (hlimits b hb) hd)

/-! The source's bands. -/

theorem bands_of_sourceBands {c : Config} (h : SourceBands c) :
    c.bands = [⟨4200, 4700⟩, ⟨300, 800⟩, ⟨1400, 1800⟩, ⟨2200, 2600⟩] := by
  obtain ⟨hleader, hzero, hone, hrepeat, -⟩ := h
  simp only [Config.bands, hleader, hzero, hone, hrepeat]

theorem limits_of_sourceBands {c : Config} (h : SourceBands c) : ∀ b ∈ c.bands, b.lo.toNat ≤ b.hi.toNat := by
  rw [bands_of_sourceBands h]
  decide

theorem bandsDisjoint_of_sourceBands {c : Config} (h : SourceBands c) : BandsDisjoint c := by
  rw [BandsDisjoint, ← pairwise_apart_iff, bands_of_sourceBands h]
  obtain ⟨-, -, -, -, hclosed⟩ := h
  simp [Config.apart, Config.bandMargin, hclosed]

theorem isEndPoint_iff_of_sourceBands {c : Config} (h : SourceBands c) (d : Micros) :
    IsEndPoint c d ↔ d.toNat ∈ [300, 800, 1400, 1800, 2200, 2600, 4200, 4700] := by
  simp only [IsEndPoint, bands_of_sourceBands h, List.mem_cons, List.not_mem_nil, or_false,
    exists_eq_or_imp, exists_eq_left, BitVec.ofNat_eq_ofNat, BitVec.toNat_ofNat]
  omega

/-- The bands of 40_edge_classifier.md R121 in numbers. -/
theorem classify_iff_of_sourceBands {c : Config} (h : SourceBands c) (d : Micros) :
    (classify c d = .leader ↔ 4200 ≤ d.toNat ∧ d.toNat ≤ 4700) ∧
    (classify c d = .bitZero ↔ 300 ≤ d.toNat ∧ d.toNat ≤ 800) ∧
    (classify c d = .bitOne ↔ 1400 ≤ d.toNat ∧ d.toNat ≤ 1800) ∧
    (classify c d = .repeatCode ↔ 2200 ≤ d.toNat ∧ d.toNat ≤ 2600) ∧
    (classify c d = .invalid ↔
      ¬(4200 ≤ d.toNat ∧ d.toNat ≤ 4700) ∧ ¬(300 ≤ d.toNat ∧ d.toNat ≤ 800) ∧
      ¬(1400 ≤ d.toNat ∧ d.toNat ≤ 1800) ∧ ¬(2200 ≤ d.toNat ∧ d.toNat ≤ 2600)) := by
  obtain ⟨leaderIff, zeroIff, oneIff, repeatIff⟩ := (bandsDisjoint_of_sourceBands h).classify_iff d
  rw [leaderIff, zeroIff, oneIff, repeatIff, classify_eq_invalid_iff, bands_of_sourceBands h]
  obtain ⟨hleader, hzero, hone, hrepeat, hclosed⟩ := h
  simp [InBand, hleader, hzero, hone, hrepeat, hclosed]

/-- Settles O16: the classes follow from the bands in numbers, and what opening them changes from their end-points. -/
theorem onlyTheEightEndPointsDependOnBandClosed : Obligations.OnlyTheEightEndPointsDependOnBandClosed := by
  intro c d hbands
  have hlimits := limits_of_sourceBands hbands
  have hdisjoint := bandsDisjoint_of_sourceBands hbands
  obtain ⟨leaderIff, zeroIff, oneIff, repeatIff, invalidIff⟩ := classify_iff_of_sourceBands hbands d
  rw [leaderIff, zeroIff, oneIff, repeatIff, invalidIff, ← isEndPoint_iff_of_sourceBands hbands]
  obtain ⟨-, -, -, -, hclosed⟩ := hbands
  refine ⟨?bitZero, ?bitOne, ?repeatCode, ?leader, ?neighbours, classify_opened_ne_iff hclosed hlimits hdisjoint d,
    classify_opened_of_isEndPoint hclosed hlimits hdisjoint⟩
  all_goals
    simp only [List.mem_cons, List.not_mem_nil, or_false]
    omega

end Sys2Proof.Machine
end

section
/-! A trace one operation longer, at either end (20_memory.md R72): every operation answers the state it leaves. -/

namespace Sys2Proof.Machine

theorem performAll_cons (i : Instr) (is : List Instr) (s : State) :
    performAll (i :: is) s = performAll is (stateAfter i s) := by
  rw [performAll, exec_eq_stateAfter]

/-- One more operation at the end of a trace. -/
theorem performAll_concat {is : List Instr} {s t : State} (h : performAll is s = .next t) (i : Instr) :
    performAll (is ++ [i]) s = .next (stateAfter i t) := by
  rw [performAll_append h, performAll_cons, performAll]

end Sys2Proof.Machine
end

section
/-! The edges (41_frame_assembler.md R137 to R149): what `RISE` and `FALL` answer, class by class and phase by phase. -/

namespace Sys2Proof.Machine

/-- Settles O18. -/
theorem riseSetsThePulseFlagOnly : Obligations.RiseSetsThePulseFlagOnly :=
  fun s ts => ⟨exec_rise ts s, rfl⟩

/-! A classified pulse, one equation a class. -/

theorem assemblePulse_leader (c : Config) (d : DecoderState) :
    assemblePulse c .leader d = if d.phase = .idle then acceptLeader d else d := rfl

theorem assemblePulse_bitClass (c : Config) (b : Bool) (d : DecoderState) :
    assemblePulse c (bitClass b) d = if acceptsBit d then acceptBit b d else d := by
  cases b <;> rfl

theorem assemblePulse_repeatCode (c : Config) (d : DecoderState) :
    assemblePulse c .repeatCode d = if d.phase = .receiving then acceptRepeat c d else d := rfl

theorem assemblePulse_invalid (c : Config) (d : DecoderState) : assemblePulse c .invalid d = d := rfl

/-- An accepted bit in the terms of the statements: the bit is added as a word, and the flag is raised by bit 32
(41_frame_assembler.md R144). -/
theorem acceptBit_eq (b : Bool) (d : DecoderState) :
    acceptBit b d =
      { d with
        accumulator := (d.accumulator <<< 1) ||| (if b then 1 else 0)
        bitCount := d.bitCount + 1
        phase := .receiving
        frameReady := if d.bitCount.toNat + 1 = 32 then true else d.frameReady } := by
  have hword : (BitVec.ofBool b).setWidth 32 = if b then (1 : Word) else 0 := by cases b <;> rfl
  have hready : (d.frameReady || decide (d.bitCount.toNat + 1 = frameBits)) =
      if d.bitCount.toNat + 1 = 32 then true else d.frameReady := by
    split <;> simp_all [frameBits]
  rw [acceptBit, hword, hready]

/-- Settles O20: the decoder is what the classified pulse assembles, and each clause is one branch of its class. -/
theorem fallFollowsTheTransitionTable : Obligations.FallFollowsTheTransitionTable := by
  intro s ts hpulse
  refine ⟨assemblePulse s.cfg (classify s.cfg ts) s.decoder, ?answer, ?leader, ?leaderIgnored, ?bit, ?bitIgnored,
    ?repeatCode, ?repeatIgnored, ?invalid⟩
  case answer =>
    rw [exec_fall, fallingEdge_of_pulse s.cfg ts hpulse]
    rfl
  case leader =>
    intro hclass hidle
    rw [hclass, assemblePulse_leader, if_pos hidle]
    rfl
  case leaderIgnored =>
    intro hclass hphase
    rw [hclass, assemblePulse_leader, if_neg hphase]
  case bit =>
    intro b hclass hphase hroom
    rw [hclass, assemblePulse_bitClass, if_pos ((acceptsBit_iff s.decoder).2 ⟨hphase, hroom⟩), acceptBit_eq]
  case bitIgnored =>
    intro b hclass hignored
    have hrejects : ¬acceptsBit s.decoder = true := by
      rw [acceptsBit_iff, not_and_or, not_not, not_lt]
      exact hignored
    rw [hclass, assemblePulse_bitClass, if_neg hrejects]
  case repeatCode =>
    intro hclass hphase
    rw [hclass, assemblePulse_repeatCode, if_pos hphase]
    rfl
  case repeatIgnored =>
    intro hclass hphase
    rw [hclass, assemblePulse_repeatCode, if_neg hphase]
  case invalid =>
    intro hclass
    rw [hclass, assemblePulse_invalid]

/-- Settles O21: at a counter width of 8 or more the ceiling is 255, and an accepted REPEAT writes no other register
but the watchdog's. -/
theorem acceptedRepeatCountsAndFeedsTheWatchdog : Obligations.AcceptedRepeatCountsAndFeedsTheWatchdog := by
  intro s ts hpulse hphase hclass hwidth
  have hfall : fallingEdge s.cfg ts s.decoder = { acceptRepeat s.cfg s.decoder with pulseInProgress := false } := by
    rw [fallingEdge_of_pulse s.cfg ts hpulse, hclass, assemblePulse_repeatCode, if_pos hphase]
  have hcount : (acceptRepeat s.cfg s.decoder).repeatCounter.toNat = min (s.decoder.repeatCounter.toNat + 1) 255 := by
    rw [acceptRepeat_repeatCounter, saturatingInc_toNat, repeatCeiling_of_full_width hwidth]
    rfl
  rw [exec_fall, hfall]
  exact ⟨_, rfl, hcount, rfl, rfl, rfl, rfl, rfl, rfl, rfl, rfl, rfl, rfl, rfl, rfl⟩

/-- The environment's duty (20_memory.md R65) is carried along: after an operation, the flag says again whether the
operations to come may begin with a rising or with a falling edge. -/
theorem edgesAlternate_of_exec {i : Instr} {is : List Instr} {s t : State} (hexec : exec i s = .next t)
    (h : edgesAlternate s.decoder.pulseInProgress (i :: is) = true) :
    edgesAlternate t.decoder.pulseInProgress is = true := by
  rw [pulseFlagIsWrittenByEdgesAndReset i s t hexec]
  cases i with
  | rise _ | fall _ =>
    obtain ⟨-, hrest⟩ := Bool.and_eq_true_iff.1 h
    exact hrest
  | wtick | ptick | keyrd | dbstep _ | poll | setduty _ | seten _ _ | reset => exact h

theorem edgesAlternate_of_performAll {before after : List Instr} {s t : State} (hrun : performAll before s = .next t)
    (h : edgesAlternate s.decoder.pulseInProgress (before ++ after) = true) :
    edgesAlternate t.decoder.pulseInProgress after = true := by
  induction before generalizing s with
  | nil =>
    cases hrun
    exact h
  | cons i is ih =>
    rw [performAll_cons] at hrun
    exact ih hrun (edgesAlternate_of_exec (exec_eq_stateAfter i s) h)

/-- Settles O19: a falling edge that comes next in an alternating sequence is preceded by a rising one. -/
theorem fallWithoutAPulseChangesNothing : Obligations.FallWithoutAPulseChangesNothing := by
  refine ⟨fun s ts hclear => ⟨?_, ?_⟩, fun before after ts s t halternate hrun => ?_⟩
  · rw [exec_fall, fallingEdge_of_no_pulse s.cfg ts hclear]
    rfl
  · simp [errorLabel, hclear]
  · obtain ⟨hhigh, -⟩ := Bool.and_eq_true_iff.1 (edgesAlternate_of_performAll hrun halternate)
    exact hhigh

end Sys2Proof.Machine
end

section
/-! The watchdog (41_frame_assembler.md R151 to R157): one tick, and any number of them in a row. -/

namespace Sys2Proof.Machine

/-! One tick, by the condition that selects its case. -/

theorem watchdogTick_of_idle (c : Config) {d : DecoderState} (hidle : d.phase = .idle) :
    watchdogTick c d = (d, .none) := by
  rw [watchdogTick, if_pos hidle]

theorem watchdogTick_of_full (c : Config) {d : DecoderState} (hphase : d.phase ≠ .idle)
    (hfull : d.bitCount.toNat = 32) : watchdogTick c d = (tickTracked c d, .none) := by
  rw [watchdogTick, if_neg hphase, if_pos ((frameFull_iff d).2 hfull)]

theorem not_frameFull_of_lt {d : DecoderState} (hroom : d.bitCount.toNat < 32) : ¬frameFull d = true := by
  rw [frameFull_iff]
  exact hroom.ne

theorem watchdogTick_of_partial {c : Config} {d : DecoderState} (hphase : d.phase ≠ .idle)
    (hroom : d.bitCount.toNat < 32) (hbelow : d.watchdogTicks.toNat + 1 < c.wdtCeiling.toNat) :
    watchdogTick c d = (tickPartial d, .none) := by
  have hopen : ¬ceilingReached c d = true := by rwa [ceilingReached_iff, not_le]
  rw [watchdogTick, if_neg hphase, if_neg (not_frameFull_of_lt hroom), if_neg hopen]

theorem watchdogTick_of_deadline {c : Config} {d : DecoderState} (hphase : d.phase ≠ .idle)
    (hroom : d.bitCount.toNat < 32) (hreached : c.wdtCeiling.toNat ≤ d.watchdogTicks.toNat + 1) :
    watchdogTick c d = (clearedDecoder d.pulseInProgress, .timedOut) := by
  rw [watchdogTick, if_neg hphase, if_neg (not_frameFull_of_lt hroom), if_pos ((ceilingReached_iff c d).2 hreached),
    decoderReset_eq_clearedDecoder]

/-- Settles O22. -/
theorem watchdogTickFollowsItsRules : Obligations.WatchdogTickFollowsItsRules := by
  intro s
  refine ⟨_, _, exec_wtick s, ?idle, ?tracked, ?below, ?deadline⟩
  case idle =>
    intro hidle
    rw [watchdogTick_of_idle s.cfg hidle]
    exact ⟨rfl, rfl⟩
  case tracked =>
    intro hphase hfull
    rw [watchdogTick_of_full s.cfg hphase hfull]
    exact ⟨rfl, rfl⟩
  case below =>
    intro hphase hroom hbelow
    rw [watchdogTick_of_partial hphase hroom hbelow]
    exact ⟨rfl, rfl⟩
  case deadline =>
    intro hphase hroom hreached
    rw [watchdogTick_of_deadline hphase hroom hreached]
    exact ⟨rfl, rfl⟩

/-! Ticks in a row. -/

/-- The decoder `d` with `n` watchdog ticks counted. -/
def withTicks (d : DecoderState) (n : Nat) : DecoderState := { d with watchdogTicks := BitVec.ofNat 4 n }

theorem withTicks_watchdogTicks (d : DecoderState) : withTicks d d.watchdogTicks.toNat = d := by
  rw [withTicks, BitVec.ofNat_toNat, BitVec.setWidth_eq]

theorem withTicks_watchdogTicks_toNat {c : Config} (d : DecoderState) {n : Nat} (h : n ≤ c.wdtCeiling.toNat) :
    (withTicks d n).watchdogTicks.toNat = n :=
  Nat.mod_eq_of_lt (h.trans_lt c.wdtCeiling.isLt)

theorem tickPartial_withTicks (d : DecoderState) (n : Nat) : tickPartial (withTicks d n) = withTicks d (n + 1) := by
  rw [withTicks, withTicks, BitVec.ofNat_add]
  rfl

theorem tickTracked_withTicks {c : Config} {d : DecoderState} {n : Nat} (hready : d.frameReady = true)
    (h : n ≤ c.wdtCeiling.toNat) : tickTracked c (withTicks d n) = withTicks d (min (n + 1) c.wdtCeiling.toNat) := by
  rw [tickTracked, saturatingInc, withTicks_watchdogTicks_toNat d h, withTicks, withTicks, ← hready]

/-- Ticks in a row act on the decoder alone: it goes through any sequence `d` of which one tick makes each next
member, up to a limit. -/
theorem performAll_wticks {s : State} {d : Nat → DecoderState} {limit : Nat} (hstart : d 0 = s.decoder)
    (hnext : ∀ n < limit, (watchdogTick s.cfg (d n)).1 = d (n + 1)) {n : Nat} (hn : n ≤ limit) :
    ∃ t, performAll (List.replicate n .wtick) s = .next t ∧ t.decoder = d n ∧
      t.debouncer = s.debouncer ∧ t.pwm = s.pwm ∧ t.cfg = s.cfg ∧ t.opPort = s.opPort := by
  induction n with
  | zero => exact ⟨s, rfl, hstart.symm, rfl, rfl, rfl, rfl⟩
  | succ n ih =>
    obtain ⟨t, hrun, hdecoder, hdebouncer, hpwm, hcfg, hport⟩ := ih (Nat.le_of_succ_le hn)
    refine ⟨stateAfter .wtick t, ?_, ?_, hdebouncer, hpwm, hcfg, hport⟩
    · rw [List.replicate_succ', performAll_concat hrun]
    · rw [← hnext n hn, ← hcfg, ← hdecoder]
      rfl

/-- Ticks below the deadline of a partial frame are counted and nothing else (41_frame_assembler.md R155). -/
theorem performAll_wticks_of_partial {s : State} (hphase : s.decoder.phase ≠ .idle)
    (hroom : s.decoder.bitCount.toNat < 32) (hfresh : s.decoder.watchdogTicks = 0) {n : Nat}
    (hn : n < s.cfg.wdtCeiling.toNat) :
    ∃ t, performAll (List.replicate n .wtick) s = .next t ∧ t.decoder = withTicks s.decoder n ∧
      t.debouncer = s.debouncer ∧ t.pwm = s.pwm ∧ t.cfg = s.cfg ∧ t.opPort = s.opPort := by
  have hstart : withTicks s.decoder 0 = s.decoder := by
    simpa [hfresh] using withTicks_watchdogTicks s.decoder
  refine performAll_wticks hstart (fun m hm => ?_) (Nat.le_sub_one_of_lt hn)
  have hticks := withTicks_watchdogTicks_toNat (c := s.cfg) s.decoder (n := m) (by omega)
  rw [watchdogTick_of_partial (d := withTicks s.decoder m) hphase hroom (by omega), tickPartial_withTicks]

/-- Settles O23: the deadline's tick finds one tick less than the ceiling counted. -/
theorem partialFrameTimesOutAtTheCeiling : Obligations.PartialFrameTimesOutAtTheCeiling := by
  intro s hceiling hphase hroom hfresh
  refine ⟨fun n hn => performAll_wticks_of_partial hphase hroom hfresh hn, ?_⟩
  obtain ⟨m, hm⟩ : ∃ m, s.cfg.wdtCeiling.toNat = m + 1 := Nat.exists_eq_add_of_le' hceiling
  obtain ⟨t, hrun, hdecoder, hdebouncer, hpwm, hcfg, hport⟩ :=
    performAll_wticks_of_partial hphase hroom hfresh (n := m) (by omega)
  have hticks := withTicks_watchdogTicks_toNat (c := s.cfg) s.decoder (n := m) (by omega)
  have htick : watchdogTick t.cfg t.decoder = (clearedDecoder s.decoder.pulseInProgress, .timedOut) := by
    rw [hcfg, hdecoder]
    exact watchdogTick_of_deadline hphase hroom (by omega)
  refine ⟨stateAfter .wtick t, ?_, congrArg Prod.fst htick, congrArg Prod.snd htick, hdebouncer, hpwm, hcfg, hport⟩
  rw [hm, List.replicate_succ', performAll_concat hrun]

/-- Settles O24: each tick of a tracked frame adds one to its count until the ceiling stops it. -/
theorem trackedFrameOutlastsTheWatchdog : Obligations.TrackedFrameOutlastsTheWatchdog := by
  intro s n htracks hle
  obtain ⟨hphase, hfull, hready⟩ := htracks
  have hactive : s.decoder.phase ≠ .idle := by simp [hphase]
  have hstart : withTicks s.decoder (min (s.decoder.watchdogTicks.toNat + 0) s.cfg.wdtCeiling.toNat) = s.decoder := by
    rw [Nat.add_zero, min_eq_left hle, withTicks_watchdogTicks]
  refine performAll_wticks (limit := n)
    (d := fun m => withTicks s.decoder (min (s.decoder.watchdogTicks.toNat + m) s.cfg.wdtCeiling.toNat))
    hstart (fun m _ => ?_) le_rfl
  rw [watchdogTick_of_full s.cfg (d := withTicks s.decoder _) hactive hfull, tickTracked_withTicks hready (by omega)]
  exact congrArg (withTicks s.decoder) (by omega)

end Sys2Proof.Machine
end

section
/-! VALIDATE and the key read (42_frame_validator.md R172 to R181): the one frame a command byte has, the cases of a
key read, and how long a tracked frame is answered. -/

namespace Sys2Proof.Machine

/-! The bytes of a frame. -/

/-- A byte appended to a word is its last digit in base 256. -/
theorem append_byte_toNat {n : Nat} (x : BitVec n) (b : Byte) : (x ++ b).toNat = x.toNat * 256 + b.toNat := by
  rw [BitVec.toNat_append, ← Nat.shiftLeft_add_eq_or_of_lt b.isLt, Nat.shiftLeft_eq]

/-- A word is its four bytes, high byte first (30_encoding.md R104). -/
theorem eq_append_bytes_iff (w : Word) (a b c d : Byte) :
    w = a ++ b ++ c ++ d ↔
      w.extractLsb' 24 8 = a ∧ w.extractLsb' 16 8 = b ∧ w.extractLsb' 8 8 = c ∧ w.extractLsb' 0 8 = d := by
  have hw := w.isLt
  have ha := a.isLt
  have hb := b.isLt
  have hc := c.isLt
  have hd := d.isLt
  simp only [← BitVec.toNat_inj, extractLsb'_byte_toNat, append_byte_toNat]
  omega

theorem byte_eq_not_comm (a b : Byte) : a = ~~~b ↔ b = ~~~a := by
  rw [eq_not_iff_add, eq_not_iff_add, Nat.add_comm]

/-- The accepted frames for one device: one for each command byte (42_frame_validator.md R172). -/
theorem validate_valid_iff_exists_command (w : Word) (id : Byte) :
    (validate w id).valid = true ↔ ∃ c : Byte, w = id ++ ~~~id ++ c ++ ~~~c := by
  simp only [validate_valid, eq_append_bytes_iff]
  constructor
  · rintro ⟨haddress, rfl, hcommand⟩
    exact ⟨_, rfl, (byte_eq_not_comm _ _).1 haddress, rfl, (byte_eq_not_comm _ _).1 hcommand⟩
  · rintro ⟨_, rfl, haddress, rfl, hcommand⟩
    exact ⟨(byte_eq_not_comm _ _).1 haddress, rfl, (byte_eq_not_comm _ _).1 hcommand⟩

/-- A frame that fails a test is answered by no key. -/
theorem validate_code_of_invalid {w : Word} {id : Byte} (h : (validate w id).valid = false) :
    (validate w id).code = 0 := by
  have htests : validFrame (frameView w) id = false := h
  simp [validate, htests]

/-- What `VALIDATE` asks beyond well-formedness is that the frame is for this device. -/
theorem validFrame_of_wellFormed {f : Frame} (h : wellFormedFrame f = true) (id : Byte) :
    validFrame f id = decide (f.address = id) := by
  obtain ⟨haddress, hcommand⟩ : f.address = ~~~f.addressInverse ∧ f.command = ~~~f.commandInverse := by
    simpa [wellFormedFrame] using h
  simp [validFrame, ← haddress, ← hcommand]

/-- Settles O30. -/
theorem validateAcceptsOneFramePerCommand : Obligations.ValidateAcceptsOneFramePerCommand := by
  intro w id
  refine ⟨validate_valid_iff_validFrameFor w id, validate_valid_iff_exists_command w id, fun hvalid => ?_,
    validate_code_of_invalid, fun hwell => ?_⟩
  · rw [validate_code hvalid, extractLsb'_eq_commandOf]
  · rw [validate, validFrame_of_wellFormed hwell, decide_eq_true_iff]

/-! A key read with no frame, and with one that has expired; the other two cases stand with the frame on the wire. -/

/-- With no frame ready a key read answers no key (42_frame_validator.md R175). -/
theorem readKey_of_not_ready (c : Config) {d : DecoderState} (hready : d.frameReady = false) :
    readKey c d = (0, d) := by
  simp [readKey, hready]

/-- A valid frame at the ceiling is answered by its command a last time and dropped (42_frame_validator.md R177). -/
theorem readKey_of_expired {c : Config} {d : DecoderState} (hready : d.frameReady = true)
    (hvalid : ValidFrameFor c.deviceId d.accumulator) (hticks : c.wdtCeiling.toNat ≤ d.watchdogTicks.toNat) :
    readKey c d = (commandOf d.accumulator, clearedDecoder d.pulseInProgress) := by
  have hvalidate := (validate_valid_iff_validFrameFor d.accumulator c.deviceId).2 hvalid
  have hexpired : expired c d = true := by simpa [expired] using hticks
  simp [readKey, hready, hvalidate, hexpired, validate_code hvalidate, extractLsb'_eq_commandOf,
    decoderReset_eq_clearedDecoder]

/-- Settles O31. -/
theorem keyReadFollowsItsRules : Obligations.KeyReadFollowsItsRules := by
  intro s
  refine ⟨_, _, exec_keyrd s, ?noFrame, ?invalid, ?expired, ?live⟩
  case noFrame =>
    intro hready
    rw [readKey_of_not_ready s.cfg hready]
    exact ⟨rfl, rfl⟩
  case invalid =>
    intro hready hinvalid
    rw [readKey_of_invalid hready hinvalid]
    exact ⟨rfl, decoderReset_eq_clearedDecoder s.decoder⟩
  case expired =>
    intro hready hvalid hticks
    rw [readKey_of_expired hready hvalid hticks]
    exact ⟨rfl, rfl⟩
  case live =>
    intro hready hvalid hticks
    rw [readKey_of_valid hready hvalid hticks]
    exact ⟨rfl, rfl⟩

/-! How long a tracked frame is answered. -/

/-- Ticks of a tracked frame leave everything of its decoder but the count, which stops at the ceiling
(41_frame_assembler.md R153). -/
theorem performAll_wticks_of_tracked {s : State} (n : Nat) (htracks : TracksFrame s.decoder)
    (hle : s.decoder.watchdogTicks.toNat ≤ s.cfg.wdtCeiling.toNat) :
    ∃ t m, performAll (List.replicate n .wtick) s = .next t ∧ t.cfg = s.cfg ∧ t.decoder = withTicks s.decoder m ∧
      t.decoder.watchdogTicks.toNat = min (s.decoder.watchdogTicks.toNat + n) s.cfg.wdtCeiling.toNat := by
  obtain ⟨t, hrun, hdecoder, -, -, hcfg, -⟩ := trackedFrameOutlastsTheWatchdog s n htracks hle
  refine ⟨t, _, hrun, hcfg, hdecoder, ?_⟩
  rw [hdecoder]
  exact withTicks_watchdogTicks_toNat s.decoder (min_le_right _ _)

/-- `KEYRD` leaves what the key read answers, and nothing else changes (42_frame_validator.md R174). -/
theorem stateAfter_keyrd {s : State} {k : Byte} {d : DecoderState} (h : readKey s.cfg s.decoder = (k, d)) :
    stateAfter .keyrd s = { s with decoder := d, result := .key k, event := none } := by
  simp [stateAfter, decoderAfter, debouncerAfter, pwmAfter, resultAfter, eventAfter, h]

/-- Settles O32: the read after the ticks finds the same frame, and its count says whether it is the last. -/
theorem keyLivesUntilTheFirstExpiredRead : Obligations.KeyLivesUntilTheFirstExpiredRead := by
  intro s n htracks hvalid hle
  obtain ⟨t, m, hrun, hcfg, hdecoder, hticks⟩ := performAll_wticks_of_tracked n htracks hle
  have htracks' : TracksFrame t.decoder := by rwa [hdecoder]
  have ⟨_, _, hready⟩ := htracks'
  have haccumulator : t.decoder.accumulator = s.decoder.accumulator := by rw [hdecoder, withTicks]
  have hpulse : t.decoder.pulseInProgress = s.decoder.pulseInProgress := by rw [hdecoder, withTicks]
  have hvalid' : ValidFrameFor t.cfg.deviceId t.decoder.accumulator := by rwa [hcfg, haccumulator]
  refine ⟨stateAfter .keyrd t, performAll_concat hrun .keyrd, ?_⟩
  rw [← haccumulator, ← hpulse]
  obtain hlive | hexpired := lt_or_ge t.decoder.watchdogTicks.toNat t.cfg.wdtCeiling.toNat
  · rw [stateAfter_keyrd (readKey_of_valid hready hvalid' hlive)]
    rw [hcfg] at hlive
    exact ⟨rfl, fun _ => ⟨htracks', rfl⟩, fun hlate => by omega⟩
  · rw [stateAfter_keyrd (readKey_of_expired hready hvalid' hexpired)]
    rw [hcfg] at hexpired
    exact ⟨rfl, fun hearly => by omega, fun _ => ⟨rfl, _, exec_keyrd _, rfl, rfl⟩⟩

end Sys2Proof.Machine
end

section
/-! The debouncer step, case by case, and `POLL` as a key read followed by it (43_key_debouncer.md R192 to R200, R205,
R206). -/

namespace Sys2Proof.Machine

/-! The two counts in the terms of the statements. -/

theorem stoppingDec_eq_ofNat {n : Nat} (x : BitVec n) : stoppingDec x = BitVec.ofNat n (x.toNat - 1) := by
  rw [← stoppingDec_toNat, BitVec.ofNat_toNat, BitVec.setWidth_eq]

theorem stoppingDec_of_pos {n : Nat} {x : BitVec n} (h : 0 < x.toNat) : stoppingDec x = x - 1 := by
  refine if_neg fun hzero => ?_
  simp [hzero] at h

theorem pressEvent_of_ne_zero {k : Byte} (h : k ≠ 0) : pressEvent k = some { kind := .press, key := k } := if_neg h

/-! One step, by the condition that selects its case. -/

/-- Case NEW (43_key_debouncer.md R195). -/
theorem debounce_of_ne (c : Config) {k : Byte} {b : DebounceState} (h : k ≠ b.lastKey) :
    debounce c k b = (newKey c k, pressEvent k) := if_pos h

/-- Case IDLE (43_key_debouncer.md R199). -/
theorem debounce_of_no_key (c : Config) {b : DebounceState} (h : 0 = b.lastKey) : debounce c 0 b = (settle b, none) := by
  rw [debounce, if_neg (not_not_intro h), if_neg (not_not_intro rfl)]

section Held

variable (c : Config) {k : Byte} {b : DebounceState} (hk : k = b.lastKey) (hk0 : k ≠ 0)

include hk hk0

/-- Case SETTLE (43_key_debouncer.md R196). -/
theorem debounce_of_timer_pos (h : 0 < b.debounceTimer.toNat) : debounce c k b = (settle b, none) := by
  rw [debounce, if_neg (not_not_intro hk), if_pos hk0, if_pos h]

/-- Case HOLD (43_key_debouncer.md R197). -/
theorem debounce_of_timer_zero (h : b.debounceTimer.toNat = 0) : debounce c k b = hold c k b := by
  rw [debounce, if_neg (not_not_intro hk), if_pos hk0, if_neg h.not_gt]

end Held

/-- The hold that repeats (43_key_debouncer.md R198). -/
theorem hold_of_threshold {c : Config} {k : Byte} {b : DebounceState} (hlisted : k ∈ c.whitelist)
    (h : c.holdThreshold.toNat ≤ min (b.repeatCount.toNat + 1) 255) :
    hold c k b = ({ b with repeatCount := c.repeatReload }, some { kind := .repeatEv, key := k }) := by
  obtain ⟨-, -, heq⟩ | ⟨hshort, -⟩ := hold_cases c k b
  · exact heq
  · exact absurd ⟨hlisted, h⟩ hshort

/-- The hold that only counts (43_key_debouncer.md R198, R200). -/
theorem hold_of_short {c : Config} {k : Byte} {b : DebounceState}
    (h : k ∉ c.whitelist ∨ min (b.repeatCount.toNat + 1) 255 < c.holdThreshold.toNat) :
    hold c k b = ({ b with repeatCount := saturatingInc b.repeatCount 255 }, none) := by
  obtain ⟨hlisted, hreached, -⟩ | ⟨-, heq⟩ := hold_cases c k b
  · exact absurd h (not_or.2 ⟨not_not_intro hlisted, hreached.not_gt⟩)
  · exact heq

/-- Settles O33. -/
theorem debouncerStepFollowsItsCases : Obligations.DebouncerStepFollowsItsCases := by
  intro s k
  refine ⟨_, _, exec_dbstep k s, ?new, ?settle, ?repeats, ?counts, ?idle⟩
  case new =>
    intro hnew
    rw [debounce_of_ne s.cfg hnew]
    exact ⟨rfl, rfl⟩
  case settle =>
    intro hk hk0 htimer
    rw [debounce_of_timer_pos s.cfg hk hk0 htimer, settle, stoppingDec_of_pos htimer]
    exact ⟨rfl, rfl⟩
  case repeats =>
    intro hk hk0 htimer hlisted hreached
    rw [debounce_of_timer_zero s.cfg hk hk0 htimer, hold_of_threshold hlisted hreached]
    exact ⟨rfl, rfl⟩
  case counts =>
    intro hk hk0 htimer hshort
    rw [debounce_of_timer_zero s.cfg hk hk0 htimer, hold_of_short hshort]
    exact ⟨rfl, rfl⟩
  case idle =>
    rintro hk rfl
    rw [debounce_of_no_key s.cfg hk, settle, stoppingDec_eq_ofNat]
    exact ⟨rfl, rfl⟩

/-! `POLL`. -/

/-- Settles O36. -/
theorem pollIsKeyReadThenDebouncerStep : Obligations.PollIsKeyReadThenDebouncerStep :=
  fun s => ⟨_, _, _, exec_eq_stateAfter .keyrd s, rfl, exec_eq_stateAfter (.dbstep _) _, exec_eq_stateAfter .poll s⟩

/-- Settles O37: the read answers no key, which is not the latched one. -/
theorem pollOnAMalformedFrameReleasesTheKey : Obligations.PollOnAMalformedFrameReleasesTheKey := by
  intro s hready hinvalid hlatched
  rw [exec_poll, readKey_of_invalid hready hinvalid, debounce_of_ne s.cfg hlatched.symm,
    decoderReset_eq_clearedDecoder]
  rfl

end Sys2Proof.Machine
end

section
/-! The events of the debouncer: which key they name, and what a key that is held for many polls emits
(43_key_debouncer.md R193, R198, R201). -/

namespace Sys2Proof.Machine

/-! The latched key and the event of one step. -/

theorem hold_lastKey (c : Config) (k : Byte) (b : DebounceState) : (hold c k b).1.lastKey = b.lastKey := by
  obtain ⟨-, -, heq⟩ | ⟨-, heq⟩ := hold_cases c k b <;> rw [heq]

/-- Every step latches the key it polled. -/
theorem debounce_lastKey (c : Config) (k : Byte) (b : DebounceState) : (debounce c k b).1.lastKey = k := by
  obtain ⟨-, heq⟩ | ⟨hk, -, -, heq⟩ | ⟨hk, -, -, heq⟩ | ⟨hk, -, heq⟩ := debounce_cases c k b <;> rw [heq]
  · exact newKey_lastKey c k
  · exact hk.symm
  · exact (hold_lastKey c k b).trans hk.symm
  · exact hk.symm

theorem hold_event_eq_some {c : Config} {k : Byte} {b : DebounceState} {e : Event} (h : (hold c k b).2 = some e) :
    k ∈ c.whitelist ∧ e = { kind := .repeatEv, key := k } := by
  obtain ⟨hlisted, -, heq⟩ | ⟨-, heq⟩ := hold_cases c k b <;> rw [heq] at h
  · exact ⟨hlisted, (Option.some.inj h).symm⟩
  · exact nomatch h

theorem pressEvent_eq_some {k : Byte} {e : Event} (h : pressEvent k = some e) :
    k ≠ 0 ∧ e = { kind := .press, key := k } := by
  by_cases hk0 : k = 0
  · rw [pressEvent, if_pos hk0] at h
    exact nomatch h
  · rw [pressEvent_of_ne_zero hk0] at h
    exact ⟨hk0, (Option.some.inj h).symm⟩

/-- The two events there are: a new key is pressed, or a latched key of the whitelist repeats (43_key_debouncer.md
R193). -/
theorem debounce_event_eq_some {c : Config} {k : Byte} {b : DebounceState} {e : Event}
    (h : (debounce c k b).2 = some e) :
    k ≠ 0 ∧ ((k ≠ b.lastKey ∧ e = { kind := .press, key := k }) ∨
      (k = b.lastKey ∧ k ∈ c.whitelist ∧ e = { kind := .repeatEv, key := k })) := by
  obtain ⟨hnew, heq⟩ | ⟨-, -, -, heq⟩ | ⟨hk, hk0, -, heq⟩ | ⟨-, -, heq⟩ := debounce_cases c k b <;> rw [heq] at h
  · obtain ⟨hk0, he⟩ := pressEvent_eq_some h
    exact ⟨hk0, .inl ⟨hnew, he⟩⟩
  · exact nomatch h
  · exact ⟨hk0, .inr ⟨hk, hold_event_eq_some h⟩⟩
  · exact nomatch h

theorem debounce_event_key {c : Config} {k : Byte} {b : DebounceState} {e : Event}
    (h : (debounce c k b).2 = some e) : e.key ≠ 0 ∧ e.key = (debounce c k b).1.lastKey := by
  rw [debounce_lastKey]
  obtain ⟨hk0, ⟨-, rfl⟩ | ⟨-, -, rfl⟩⟩ := debounce_event_eq_some h <;> exact ⟨hk0, rfl⟩

/-- Settles O38. -/
theorem eventsComeFromTheDebouncerAndNameAKey : Obligations.EventsComeFromTheDebouncerAndNameAKey := by
  intro i s t e hexec hevent
  obtain rfl := Host.Outcome.next.inj ((exec_eq_stateAfter i s).symm.trans hexec)
  cases i with
  | dbstep k => exact ⟨.inl ⟨k, rfl⟩, debounce_event_key hevent⟩
  | poll => exact ⟨.inr rfl, debounce_event_key hevent⟩
  | rise _ | fall _ | wtick | ptick | keyrd | setduty _ | seten _ _ | reset => exact nomatch hevent

/-! A key polled again and again. -/

/-- The events of `n` debouncer steps with the same key. -/
def heldEvents (c : Config) (k : Byte) : Nat → DebounceState → List Event
  | 0, _ => []
  | n + 1, b => (debounce c k b).2.toList ++ heldEvents c k n (debounce c k b).1

theorem eventsAlong_replicate_dbstep (k : Byte) (n : Nat) (s : State) :
    eventsAlong (List.replicate n (.dbstep k)) s = heldEvents s.cfg k n s.debouncer := by
  induction n generalizing s with
  | zero => rfl
  | succ n ih =>
    rw [List.replicate_succ, eventsAlong, exec_eq_stateAfter]
    exact congrArg ((debounce s.cfg k s.debouncer).2.toList ++ ·) (ih _)

/-- A new key is pressed on the first poll (43_key_debouncer.md R195). -/
theorem heldEvents_of_new (c : Config) {k : Byte} {b : DebounceState} (hk0 : k ≠ 0) (hnew : k ≠ b.lastKey) (n : Nat) :
    heldEvents c k (n + 1) b = { kind := .press, key := k } :: heldEvents c k n (newKey c k) := by
  rw [heldEvents, debounce_of_ne c hnew, pressEvent_of_ne_zero hk0]
  rfl

/-- A latched key emits repeats alone, and only from the whitelist (43_key_debouncer.md R200, R201). -/
theorem mem_heldEvents_of_latched {c : Config} {k : Byte} {n : Nat} {b : DebounceState} {e : Event}
    (hk : k = b.lastKey) (he : e ∈ heldEvents c k n b) : k ∈ c.whitelist ∧ e.kind = .repeatEv := by
  induction n generalizing b with
  | zero => exact nomatch he
  | succ n ih =>
    obtain hfirst | hlater := List.mem_append.1 he
    · obtain ⟨-, ⟨hnew, -⟩ | ⟨-, hlisted, rfl⟩⟩ := debounce_event_eq_some (Option.mem_toList.1 hfirst)
      · exact absurd hk hnew
      · exact ⟨hlisted, rfl⟩
    · exact ih (debounce_lastKey c k b).symm hlater

/-- Settles O34: after the press the key is latched. -/
theorem heldKeyIsPressedOnce : Obligations.HeldKeyIsPressedOnce := by
  intro s k n hk0 hnew
  have hlatched : k = (newKey s.cfg k).lastKey := rfl
  rw [eventsAlong_replicate_dbstep, heldEvents_of_new s.cfg hk0 hnew]
  constructor
  · have hnone : (heldEvents s.cfg k n (newKey s.cfg k)).filter (fun e => decide (e.kind = .press)) = [] := by
      refine List.filter_eq_nil_iff.2 fun e he => ?_
      obtain ⟨-, hkind⟩ := mem_heldEvents_of_latched hlatched he
      simp [hkind]
    simp [hnone]
  · intro hunlisted
    have hnone : heldEvents s.cfg k n (newKey s.cfg k) = [] := by
      refine List.eq_nil_iff_forall_not_mem.2 fun e he => ?_
      obtain ⟨hlisted, -⟩ := mem_heldEvents_of_latched hlatched he
      exact hunlisted hlisted
    rw [hnone]

end Sys2Proof.Machine
end

section
/-! The cadence of a held key of the whitelist (43_key_debouncer.md R196 to R198): a count of the polls to the next
repeat, and from it the number of repeats in any number of polls. -/

namespace Sys2Proof.Machine

/-! Events that come at a fixed period. -/

/-- How many of `n` polls are the one numbered `first`, counted from 1, or a whole number of periods after it. -/
def repeatsWithin (period first n : Nat) : Nat := (n + period - first) / period

theorem repeatsWithin_zero {period first : Nat} (hperiod : 0 < period) (hfirst : 0 < first) :
    repeatsWithin period first 0 = 0 := Nat.div_eq_of_lt (by omega)

theorem repeatsWithin_succ_succ (period first n : Nat) :
    repeatsWithin period (first + 1) (n + 1) = repeatsWithin period first n := by
  rw [repeatsWithin, Nat.add_right_comm, Nat.add_sub_add_right, repeatsWithin]

theorem repeatsWithin_one_succ {period : Nat} (hperiod : 0 < period) (n : Nat) :
    repeatsWithin period 1 (n + 1) = repeatsWithin period period n + 1 := by
  rw [repeatsWithin, repeatsWithin, Nat.add_right_comm, Nat.add_sub_cancel, Nat.add_sub_cancel,
    Nat.add_div_right n hperiod]

/-- The poll `m` periods after the first repeat is the `m + 1`-st. -/
theorem repeatsWithin_first_add {period first : Nat} (hperiod : 0 < period) (m : Nat) :
    repeatsWithin period first (first + m * period) = m + 1 := by
  rw [repeatsWithin, Nat.add_assoc, Nat.add_sub_cancel_left, ← Nat.succ_mul, Nat.mul_div_cancel _ hperiod]

/-- One poll before it there are `m`. -/
theorem repeatsWithin_of_succ_eq {period first m n : Nat} (hperiod : 0 < period) (hn : n + 1 = first + m * period) :
    repeatsWithin period first n = m := by
  refine Nat.div_eq_of_lt_le (by omega) ?_
  rw [Nat.succ_mul]
  omega

/-! The countdown to the next repeat. -/

/-- The polls from one repeat to the next, `H - RL` (43_key_debouncer.md R198). -/
def repeatPeriod (c : Config) : Nat := c.holdThreshold.toNat - c.repeatReload.toNat

/-- The number of the poll, counted from the next, that emits the next repeat of a latched whitelisted key: the timer
runs down first, then the hold count runs up to the threshold. -/
def pollsToRepeat (c : Config) (b : DebounceState) : Nat :=
  b.debounceTimer.toNat + (c.holdThreshold.toNat - b.repeatCount.toNat)

section Held

variable {c : Config} {k : Byte} {b : DebounceState} (hreload : c.repeatReload.toNat < c.holdThreshold.toNat)
  (hlisted : k ∈ c.whitelist) (hk0 : k ≠ 0) (hk : k = b.lastKey) (hinv : DebounceInv c b)

include hreload hlisted hk0 hk hinv

/-- One poll brings the next repeat one poll nearer, or emits it and leaves a whole period to the one after. -/
theorem debounce_pollsToRepeat :
    (pollsToRepeat c b = pollsToRepeat c (debounce c k b).1 + 1 ∧ (debounce c k b).2 = none) ∨
    (pollsToRepeat c b = 1 ∧ pollsToRepeat c (debounce c k b).1 = repeatPeriod c ∧
      (debounce c k b).2 = some { kind := .repeatEv, key := k }) := by
  have hbelow : b.repeatCount.toNat < c.holdThreshold.toNat := by
    obtain ⟨-, -, hcount⟩ := hinv
    have := hcount (hk ▸ hlisted)
    omega
  have hwidth := c.holdThreshold.isLt
  obtain htimer | htimer := Nat.eq_zero_or_pos b.debounceTimer.toNat
  · obtain hreached | hshort := le_or_gt c.holdThreshold.toNat (b.repeatCount.toNat + 1)
    · rw [debounce_of_timer_zero c hk hk0 htimer, hold_of_threshold hlisted (le_min hreached (by omega))]
      refine .inr ⟨?_, ?_, rfl⟩ <;> simp only [pollsToRepeat, repeatPeriod] <;> omega
    · have hinc : (saturatingInc b.repeatCount 255).toNat = b.repeatCount.toNat + 1 := by
        rw [saturatingInc_toNat, min_eq_left (by bv_omega)]
      rw [debounce_of_timer_zero c hk hk0 htimer, hold_of_short (.inr (min_lt_of_left_lt hshort))]
      refine .inl ⟨?_, rfl⟩
      simp only [pollsToRepeat, hinc]
      omega
  · rw [debounce_of_timer_pos c hk hk0 htimer]
    refine .inl ⟨?_, rfl⟩
    simp only [pollsToRepeat, settle_debounceTimer, settle_repeatCount, stoppingDec_toNat]
    omega

/-- A held key of the whitelist emits the repeats of its cadence and nothing else. -/
theorem heldEvents_of_latched_whitelisted (n : Nat) :
    heldEvents c k n b =
      List.replicate (repeatsWithin (repeatPeriod c) (pollsToRepeat c b) n) { kind := .repeatEv, key := k } := by
  have hperiod : 0 < repeatPeriod c := Nat.sub_pos_of_lt hreload
  induction n generalizing b with
  | zero =>
    have hpos : 0 < pollsToRepeat c b := by
      obtain ⟨hfirst, -⟩ | ⟨hfirst, -⟩ := debounce_pollsToRepeat hreload hlisted hk0 hk hinv <;> omega
    rw [repeatsWithin_zero hperiod hpos]
    rfl
  | succ n ih =>
    rw [heldEvents, ih (debounce_lastKey c k b).symm (debounce_debounceInv k hreload hinv)]
    obtain ⟨hfirst, hevent⟩ | ⟨hfirst, hnext, hevent⟩ := debounce_pollsToRepeat hreload hlisted hk0 hk hinv
    · rw [hfirst, hevent, repeatsWithin_succ_succ]
      rfl
    · rw [hfirst, hevent, hnext, repeatsWithin_one_succ hperiod]
      rfl

end Held

/-- The press of a whitelisted key leaves `W + H` polls to its first repeat (43_key_debouncer.md R195, R198). -/
theorem heldEvents_of_new_whitelisted {c : Config} {k : Byte} {b : DebounceState}
    (hreload : c.repeatReload.toNat < c.holdThreshold.toNat) (hlisted : k ∈ c.whitelist) (hk0 : k ≠ 0)
    (hnew : k ≠ b.lastKey) (n : Nat) :
    heldEvents c k (n + 1) b =
      { kind := .press, key := k } ::
        List.replicate (repeatsWithin (repeatPeriod c) (c.debounceWindow.toNat + c.holdThreshold.toNat) n)
          { kind := .repeatEv, key := k } := by
  rw [heldEvents_of_new c hk0 hnew,
    heldEvents_of_latched_whitelisted hreload hlisted hk0 (newKey_lastKey c k).symm (newKey_debounceInv c k)]
  rfl

/-- Settles O35: the polls counted from the press, and the press poll before them. -/
theorem heldWhitelistedKeyRepeatsOnItsCadence : Obligations.HeldWhitelistedKeyRepeatsOnItsCadence := by
  intro s k m hlegal hlisted hnew polls
  have hchecks := (check_eq_none_iff s.cfg).1 ((legal_iff_check_eq_none s.cfg).1 hlegal)
  obtain ⟨-, -, -, -, -, -, hreload, hzero, -⟩ := hchecks
  have hk0 : k ≠ 0 := fun h => hzero (h ▸ hlisted)
  have hperiod : 0 < repeatPeriod s.cfg := Nat.sub_pos_of_lt hreload
  obtain ⟨n, hn⟩ : ∃ n, polls = n + 1 := Nat.exists_eq_add_of_le' (by omega)
  have hbefore := repeatsWithin_of_succ_eq hperiod hn.symm
  have hat := repeatsWithin_first_add (first := s.cfg.debounceWindow.toNat + s.cfg.holdThreshold.toNat) hperiod m
  rw [eventsAlong_replicate_dbstep, eventsAlong_replicate_dbstep]
  constructor
  · rw [hn, heldEvents_of_new_whitelisted hreload hlisted hk0 hnew, hbefore]
  · rw [heldEvents_of_new_whitelisted hreload hlisted hk0 hnew]
    exact congrArg (fun repeats => _ :: List.replicate repeats _) hat

end Sys2Proof.Machine
end

section
/-! The PWM engine (44_pwm_engine.md): what each of its operations writes, and ten ticks as one duty cycle. -/

namespace Sys2Proof.Machine

/-! One tick. -/

/-- A channel is on right after a tick when it is enabled and the advanced counter is below the duty
(44_pwm_engine.md R216). -/
theorem activeAt_pwmTick_iff (c : Config) (p : PwmState) {i : Nat} (h : i < c.nChannels) :
    activeAt (pwmTick c p) i = true ↔
      enabledAt p i = true ∧ (pwmTick c p).counter.toNat < p.dutyLevel.toNat := by
  rw [activeAt_pwmTick c p h, channelOn_iff, pwmTick_counter]

theorem pwmTick_counter_toNat (c : Config) (p : PwmState) :
    (pwmTick c p).counter.toNat = (p.counter.toNat + 1) % 10 := advanceCounter_toNat p.counter

/-- Settles O40: the engine a tick leaves, register by register. -/
theorem pwmTickUpdatesEveryChannel : Obligations.PwmTickUpdatesEveryChannel := by
  intro s
  have hlength : (pwmTick s.cfg s.pwm).active.length = s.cfg.nChannels := by simp
  exact ⟨pwmTick s.cfg s.pwm, exec_ptick s, pwmTick_counter_toNat s.cfg s.pwm, rfl, rfl, hlength,
    fun i hi => ⟨activeAt_pwmTick_iff s.cfg s.pwm hi, rfl⟩⟩

/-- Settles O42: the advanced counter is between 0 and 9, so it is never below 0 and always below 10. -/
theorem boundaryDutiesAreExact : Obligations.BoundaryDutiesAreExact := by
  intro s t i _ hi hexec
  obtain ⟨-, -, -, -, (hpwm : t.pwm = pwmTick s.cfg s.pwm)⟩ := exec_next_registers hexec
  have hon := activeAt_pwmTick_iff s.cfg s.pwm hi
  have hcounter : (pwmTick s.cfg s.pwm).counter.toNat ≤ 9 := by
    have := pwmTick_counter_toNat s.cfg s.pwm
    omega
  rw [hpwm]
  refine ⟨fun hduty => ?off, fun hduty => ?on, fun hduty henabled => ?four, fun hdisabled => ?disabled⟩
  case off =>
    rw [← Bool.not_eq_true, hon, hduty]
    exact fun ⟨_, hbelow⟩ => Nat.not_lt_zero _ hbelow
  case on =>
    rw [Bool.eq_iff_iff, hon, hduty]
    exact and_iff_left (Nat.lt_succ_of_le hcounter)
  case four =>
    have hbelow : (pwmTick s.cfg s.pwm).counter.toNat < 4 ↔
        (pwmTick s.cfg s.pwm).counter.toNat ∈ [0, 1, 2, 3] := List.mem_range.symm
    rw [hon, hduty, ← hbelow]
    exact and_iff_right henabled
  case disabled =>
    rw [← Bool.not_eq_true, hon, hdisabled]
    exact fun ⟨henabled, _⟩ => Bool.false_ne_true henabled

/-! The duty level and the enable flags. -/

/-- Settles O43: the operand is read as a signed integer and clamped before it is stored. -/
theorem setDutyStoresTheClampedOperand : Obligations.SetDutyStoresTheClampedOperand :=
  fun s v => ⟨clampDuty (dutyInteger v), exec_setduty v s, clampDuty_toNat (dutyInteger v)⟩

/-- `SETEN` writes the enable flags alone. -/
theorem setChannel_eq (c : Config) (ch : Byte) (en : Bool) (p : PwmState) :
    setChannel c ch en p = { p with enabled := (setChannel c ch en p).enabled } := by
  unfold setChannel
  split <;> rfl

theorem setChannel_enabled_of_lt {c : Config} {ch : Byte} (h : ch.toNat < c.nChannels) (en : Bool) (p : PwmState) :
    (setChannel c ch en p).enabled = p.enabled.set ch.toNat en := by
  rw [setChannel, channelIndex, if_pos h]

/-- An index past the channels names no flag (44_pwm_engine.md R225). -/
theorem setChannel_of_le {c : Config} {ch : Byte} (h : c.nChannels ≤ ch.toNat) (en : Bool) (p : PwmState) :
    setChannel c ch en p = p := by
  rw [setChannel, channelIndex, if_neg h.not_gt]

/-- Settles O44: an index below the channels is a place in the bank, and any other is not. -/
theorem setEnableWritesOneFlag : Obligations.SetEnableWritesOneFlag := by
  intro s ch en hform
  obtain ⟨henabled, -⟩ := hform
  refine ⟨(setChannel s.cfg ch en s.pwm).enabled, ?_, ?_, fun i hi => ?_, fun hpast => ?_⟩
  · rw [← setChannel_eq]
    exact exec_seten ch en s
  · rw [setChannel_enabled_length, henabled]
  · obtain hch | hpast := lt_or_ge ch.toNat s.cfg.nChannels
    · rw [setChannel_enabled_of_lt hch, List.getElem?_set, if_pos (henabled ▸ hch : ch.toNat < s.pwm.enabled.length)]
      simp only [eq_comm]
    · rw [setChannel_of_le hpast, if_neg (by omega)]
  · rw [setChannel_of_le hpast]

/-! Ten ticks. -/

/-- Ticks in a row run the counter round and leave the parameters, the duty and the enable flags. -/
theorem performAll_pticks {s : State} (hcounter : s.pwm.counter.toNat ≤ 9) (n : Nat) :
    ∃ t, performAll (List.replicate n .ptick) s = .next t ∧ t.cfg = s.cfg ∧
      t.pwm.counter.toNat = (s.pwm.counter.toNat + n) % 10 ∧ t.pwm.dutyLevel = s.pwm.dutyLevel ∧
      t.pwm.enabled = s.pwm.enabled := by
  induction n with
  | zero => exact ⟨s, rfl, rfl, (Nat.mod_eq_of_lt (Nat.lt_succ_of_le hcounter)).symm, rfl, rfl⟩
  | succ n ih =>
    obtain ⟨t, hrun, hcfg, hcount, hduty, henabled⟩ := ih
    refine ⟨stateAfter .ptick t, ?_, hcfg, ?_, hduty, henabled⟩
    · rw [List.replicate_succ', performAll_concat hrun]
    · calc (pwmTick t.cfg t.pwm).counter.toNat
          = ((s.pwm.counter.toNat + n) % 10 + 1) % 10 := by rw [pwmTick_counter_toNat, hcount]
        _ = (s.pwm.counter.toNat + (n + 1)) % 10 := by rw [Nat.mod_add_mod, Nat.add_assoc]

theorem counterAfterTicks_eq {s : State} (hcounter : s.pwm.counter.toNat ≤ 9) (n : Nat) :
    counterAfterTicks s n = some ((s.pwm.counter.toNat + n) % 10) := by
  obtain ⟨t, hrun, -, hcount, -, -⟩ := performAll_pticks hcounter n
  rw [counterAfterTicks, hrun, ← hcount]

/-- The last of one or more ticks sets an enabled channel's output from the counter it leaves. -/
theorem activeAfterTicks_succ {s : State} {i : Nat} (hcounter : s.pwm.counter.toNat ≤ 9) (hi : i < s.cfg.nChannels)
    (hon : enabledAt s.pwm i = true) (n : Nat) :
    activeAfterTicks s i (n + 1) = decide ((s.pwm.counter.toNat + (n + 1)) % 10 < s.pwm.dutyLevel.toNat) := by
  obtain ⟨t, hrun, hcfg, hcount, hduty, henabled⟩ := performAll_pticks hcounter n
  have hlast : activeAfterTicks s i (n + 1) = activeAt (pwmTick t.cfg t.pwm) i := by
    rw [activeAfterTicks, List.replicate_succ', performAll_concat hrun]
    rfl
  have hstill : enabledAt t.pwm i = true := by rwa [enabledAt, henabled]
  rw [hlast, Bool.eq_iff_iff, activeAt_pwmTick_iff t.cfg t.pwm (hcfg ▸ hi), pwmTick_counter_toNat, hcount,
    Nat.mod_add_mod, Nat.add_assoc, hduty, decide_eq_true_iff]
  exact and_iff_right hstill

/-- `period` numbers in a row take each remainder once, so they meet a test of the remainder as often as
`0, …, period - 1` do. -/
theorem countP_range_add_mod (first period : Nat) (test : Nat → Bool) :
    (List.range period).countP (fun n => test ((first + n) % period)) = (List.range period).countP test := by
  have hperm : ((List.range' first period).map (· % period)).Perm (List.range period) := by
    have hmod := Nat.multiset_Ico_map_mod first period
    rw [Multiset.Ico, Nat.Ico_eq_range', Nat.add_sub_cancel_left] at hmod
    exact Multiset.coe_eq_coe.1 hmod
  rw [← hperm.countP_eq test, List.countP_map, List.range'_eq_map_range, List.countP_map]
  rfl

/-- Settles O41: the counters after the ten ticks are ten numbers in a row, modulo 10. -/
theorem tenTicksAreOneDutyCycle : Obligations.TenTicksAreOneDutyCycle := by
  intro s hinv
  obtain ⟨hcounter, hduty⟩ := hinv
  have hcycle (test : Nat → Bool) :
      (List.range 10).countP (fun n => test ((s.pwm.counter.toNat + (n + 1)) % 10)) =
        (List.range 10).countP test := by
    simpa only [Nat.add_assoc, Nat.add_comm 1] using countP_range_add_mod (s.pwm.counter.toNat + 1) 10 test
  constructor
  · intro v hv
    have honce : ∀ v < 10, (List.range 10).countP (fun n => decide (n = v)) = 1 := by decide
    simp only [counterAfterTicks_eq hcounter, Option.some.injEq]
    rw [hcycle fun n => decide (n = v), honce v hv]
  · intro i hi hon
    have hbelow : ∀ d ≤ 10, (List.range 10).countP (fun n => decide (n < d)) = d := by decide
    simp only [activeAfterTicks_succ hcounter hi hon]
    rw [hcycle fun n => decide (n < s.pwm.dutyLevel.toNat), hbelow _ hduty]

end Sys2Proof.Machine
end

section
/-! `RESET` and the other operations (45_system.md R240): each of the others belongs to the PWM engine or to the key
chain, and leaves the other of the two. -/

namespace Sys2Proof.Machine

theorem pwmOperation_or_keyOperation {i : Instr} (h : i ≠ .reset) : pwmOperation i = true ∨ keyOperation i = true := by
  cases i with
  | ptick | setduty _ | seten _ _ => exact .inl rfl
  | rise _ | fall _ | wtick | keyrd | dbstep _ | poll => exact .inr rfl
  | reset => exact absurd rfl h

/-- Settles O13: of the two engines, an operation leaves the one it does not belong to. -/
theorem resetOperationWritesEveryRegister : Obligations.ResetOperationWritesEveryRegister := by
  refine ⟨exec_eq_stateAfter .reset, fun i s t hexec hreset => ?_⟩
  obtain ⟨-, -, hdecoder, hdebouncer, hpwm⟩ := exec_next_registers hexec
  rw [hdecoder, hdebouncer, hpwm]
  obtain hpwmOp | hkeyOp := pwmOperation_or_keyOperation hreset
  · exact .inr (pwmOperation_leaves_keyChain hpwmOp s)
  · exact .inl (keyOperation_leaves_pwm hkeyOp s)

end Sys2Proof.Machine
end

section
/-! The error conditions (60_exceptions.md R250 to R258): which operation in which state meets each of them, and what it
leaves and answers. -/

namespace Sys2Proof.Machine

/-! The condition each kind of operation meets. -/

/-- A pulse that meets a condition is dropped: the pulses that are assembled meet none (60_exceptions.md R251, R252,
R255). -/
theorem assemblePulse_of_pulseLabel {c : Config} {p : PulseClass} {d : DecoderState} {e : ErrorLabel}
    (h : pulseLabel p d = some e) : assemblePulse c p d = d := by
  cases p with
  | leader => exact nomatch h
  | bitZero | bitOne =>
    obtain ⟨hidle, -⟩ := Option.ite_none_right_eq_some.1 h
    simp [assemblePulse, acceptsBit, hidle]
  | repeatCode =>
    obtain ⟨hphase, -⟩ := Option.ite_none_left_eq_some.1 h
    rw [assemblePulse_repeatCode, if_neg hphase]
  | invalid => exact assemblePulse_invalid c d

/-- The conditions a pulse can meet. -/
theorem pulseLabel_cases {p : PulseClass} {d : DecoderState} {e : ErrorLabel} (h : pulseLabel p d = some e) :
    e = .spuriousPulse ∨ e = .repeatWithoutActiveFrame ∨ e = .noSignal := by
  cases p with
  | leader => exact nomatch h
  | bitZero | bitOne =>
    obtain ⟨-, hlabel⟩ := Option.ite_none_right_eq_some.1 h
    exact .inr (.inr (Option.some.inj hlabel).symm)
  | repeatCode =>
    obtain ⟨-, hlabel⟩ := Option.ite_none_left_eq_some.1 h
    exact .inr (.inl (Option.some.inj hlabel).symm)
  | invalid => exact .inl (Option.some.inj h).symm

/-- The conditions a watchdog tick can meet (60_exceptions.md R251, R253). -/
theorem tickLabel_eq_some_iff (c : Config) (d : DecoderState) (e : ErrorLabel) :
    tickLabel c d = some e ↔
      (e = .noSignal ∧ d.phase = .idle) ∨
      (e = .frameTimeout ∧ d.phase ≠ .idle ∧ d.bitCount.toNat < 32 ∧
        c.wdtCeiling.toNat ≤ d.watchdogTicks.toNat + 1) := by
  have htest : (decide (d.bitCount.toNat < frameBits) && ceilingReached c d) = true ↔
      d.bitCount.toNat < 32 ∧ c.wdtCeiling.toNat ≤ d.watchdogTicks.toNat + 1 := by
    rw [Bool.and_eq_true, decide_eq_true_iff, ceilingReached_iff, frameBits]
  unfold tickLabel
  by_cases hidle : d.phase = .idle
  · simp [hidle, eq_comm (a := e)]
  · simp only [if_neg hidle, htest]
    simp [hidle, eq_comm (a := e), and_comm]

/-- The conditions a key read can meet (60_exceptions.md R251, R254). -/
theorem readLabel_eq_some_iff (c : Config) (d : DecoderState) (e : ErrorLabel) :
    readLabel c d = some e ↔
      (e = .checksumOrAddressMismatch ∧ d.frameReady = true ∧ ¬ValidFrameFor c.deviceId d.accumulator) ∨
      (e = .noSignal ∧ ¬(d.frameReady = true ∧ ¬ValidFrameFor c.deviceId d.accumulator) ∧ d.phase = .idle) := by
  have htest : (d.frameReady && !(validate d.accumulator c.deviceId).valid) = true ↔
      d.frameReady = true ∧ ¬ValidFrameFor c.deviceId d.accumulator := by
    rw [Bool.and_eq_true, Bool.not_eq_true', ← Bool.not_eq_true, validate_valid_iff_validFrameFor]
  unfold readLabel
  by_cases hmismatch : d.frameReady = true ∧ ¬ValidFrameFor c.deviceId d.accumulator
  · rw [if_pos (htest.2 hmismatch)]
    simp [hmismatch, eq_comm (a := e)]
  · rw [if_neg (mt htest.1 hmismatch)]
    simp [hmismatch, eq_comm (a := e), and_comm]

/-- Of the operations, only an edge, a tick and a key read meet a condition (60_exceptions.md R250). -/
theorem errorLabel_eq_some_cases {i : Instr} {s : State} {e : ErrorLabel} (h : errorLabel i s = some e) :
    (∃ ts, i = .fall ts ∧ s.decoder.pulseInProgress = true ∧ pulseLabel (classify s.cfg ts) s.decoder = some e) ∨
    (i = .wtick ∧ tickLabel s.cfg s.decoder = some e) ∨
    ((i = .keyrd ∨ i = .poll) ∧ readLabel s.cfg s.decoder = some e) := by
  cases i with
  | fall ts =>
    obtain ⟨hpulse, hlabel⟩ := Option.ite_none_right_eq_some.1 h
    exact .inl ⟨ts, rfl, hpulse, hlabel⟩
  | wtick => exact .inr (.inl ⟨rfl, h⟩)
  | keyrd => exact .inr (.inr ⟨.inl rfl, h⟩)
  | poll => exact .inr (.inr ⟨.inr rfl, h⟩)
  | rise _ | ptick | dbstep _ | setduty _ | seten _ _ | reset => exact nomatch h

/-! FrameTimeout. -/

/-- The condition of 60_exceptions.md R253. -/
theorem errorLabel_eq_frameTimeout_iff (i : Instr) (s : State) :
    errorLabel i s = some .frameTimeout ↔
      i = .wtick ∧ s.decoder.phase ≠ .idle ∧ s.decoder.bitCount.toNat < 32 ∧
        s.cfg.wdtCeiling.toNat ≤ s.decoder.watchdogTicks.toNat + 1 := by
  constructor
  · intro h
    obtain ⟨ts, -, -, hlabel⟩ | ⟨hi, hlabel⟩ | ⟨-, hlabel⟩ := errorLabel_eq_some_cases h
    · simpa using pulseLabel_cases hlabel
    · exact ⟨hi, by simpa using (tickLabel_eq_some_iff _ _ _).1 hlabel⟩
    · simp [readLabel_eq_some_iff] at hlabel
  · rintro ⟨rfl, hpartial⟩
    exact (tickLabel_eq_some_iff _ _ _).2 (.inr ⟨rfl, hpartial⟩)

theorem stateAfter_wtick_of_deadline {s : State} (hphase : s.decoder.phase ≠ .idle)
    (hroom : s.decoder.bitCount.toNat < 32)
    (hreached : s.cfg.wdtCeiling.toNat ≤ s.decoder.watchdogTicks.toNat + 1) :
    stateAfter .wtick s =
      { s with decoder := clearedDecoder s.decoder.pulseInProgress, result := .timedOut, event := none } := by
  simp [stateAfter, decoderAfter, debouncerAfter, pwmAfter, resultAfter, eventAfter,
    watchdogTick_of_deadline hphase hroom hreached]

/-- A tick answers TIMED_OUT only on a partial frame at the deadline (41_frame_assembler.md R156). -/
theorem watchdogTick_eq_timedOut {c : Config} {d : DecoderState} (h : (watchdogTick c d).2 = .timedOut) :
    d.phase ≠ .idle ∧ d.bitCount.toNat ≠ 32 ∧ c.wdtCeiling.toNat ≤ d.watchdogTicks.toNat + 1 := by
  obtain ⟨-, heq⟩ | ⟨-, -, heq⟩ | ⟨hphase, hpartial, hreached, -⟩ | ⟨-, -, -, heq⟩ := watchdogTick_cases c d
  · exact nomatch heq ▸ h
  · exact nomatch heq ▸ h
  · exact ⟨hphase, hpartial, hreached⟩
  · exact nomatch heq ▸ h

theorem resultAfter_eq_timedOut {i : Instr} {s : State} (h : resultAfter i s = .timedOut) :
    i = .wtick ∧ (watchdogTick s.cfg s.decoder).2 = .timedOut := by
  cases i with
  | wtick => exact ⟨rfl, h⟩
  | rise _ | fall _ | ptick | keyrd | dbstep _ | poll | setduty _ | seten _ _ | reset => exact nomatch h

/-- Settles O50: the tick times out every frame that does not hold exactly 32 bits, and the invariant shuts out the
counts above 32, so that those are the partial frames. -/
theorem timedOutIsShownExactlyByFrameTimeout : Obligations.TimedOutIsShownExactlyByFrameTimeout := by
  intro i s t hinv hexec
  obtain ⟨⟨⟨-, -, -, hle⟩, -⟩, -, -⟩ := hinv
  obtain rfl := Host.Outcome.next.inj ((exec_eq_stateAfter i s).symm.trans hexec)
  rw [errorLabel_eq_frameTimeout_iff]
  refine ⟨Iff.rfl, ?decoder, ?timedOut, ?answer⟩
  case decoder =>
    rintro ⟨rfl, hphase, hroom, hreached⟩
    rw [stateAfter_wtick_of_deadline hphase hroom hreached]
  case timedOut =>
    intro htimedOut
    obtain ⟨hi, hresult⟩ := resultAfter_eq_timedOut htimedOut
    obtain ⟨hphase, hpartial, hreached⟩ := watchdogTick_eq_timedOut hresult
    exact ⟨hi, hphase, hle.lt_of_ne hpartial, hreached⟩
  case answer =>
    rintro ⟨rfl, hphase, hroom, hreached⟩
    rw [stateAfter_wtick_of_deadline hphase hroom hreached]

/-! A key read inside `POLL`. -/

/-- `POLL` leaves what the key read answers and what the debouncer makes of it (43_key_debouncer.md R205). -/
theorem stateAfter_poll {s : State} {k : Byte} {d : DecoderState} (h : readKey s.cfg s.decoder = (k, d)) :
    stateAfter .poll s =
      { s with
        decoder := d
        debouncer := (debounce s.cfg k s.debouncer).1
        result := .key k
        event := (debounce s.cfg k s.debouncer).2 } := by
  simp [stateAfter, decoderAfter, debouncerAfter, pwmAfter, resultAfter, eventAfter, h]

/-- No key dispatches nothing (43_key_debouncer.md R193). -/
theorem debounce_zero_event (c : Config) (b : DebounceState) : (debounce c 0 b).2 = none := by
  refine Option.eq_none_iff_forall_ne_some.2 fun e he => ?_
  obtain ⟨hk0, -⟩ := debounce_event_eq_some he
  exact hk0 rfl

/-! NoSignal, SpuriousPulse and RepeatWithoutActiveFrame. -/

/-- Settles O51: a pulse that meets a condition is dropped, and a tick or a key read that meets one of these three finds
the decoder in IDLE, where the invariant leaves no frame to read. -/
theorem harmlessConditionsChangeNothing : Obligations.HarmlessConditionsChangeNothing := by
  intro i s t hinv hexec hlabel
  obtain ⟨e, hmet, htimeout, hmismatch⟩ :
      ∃ e, errorLabel i s = some e ∧ e ≠ .frameTimeout ∧ e ≠ .checksumOrAddressMismatch := by
    obtain h | h | h := hlabel <;> exact ⟨_, h, nofun, nofun⟩
  obtain ⟨⟨⟨hidleInv, -⟩, -⟩, -, -⟩ := hinv
  obtain rfl := Host.Outcome.next.inj ((exec_eq_stateAfter i s).symm.trans hexec)
  obtain ⟨ts, rfl, hpulse, hdropped⟩ | ⟨rfl, htick⟩ | ⟨hread, hreadLabel⟩ := errorLabel_eq_some_cases hmet
  · have hfall : fallingEdge s.cfg ts s.decoder = { s.decoder with pulseInProgress := false } := by
      rw [fallingEdge_of_pulse s.cfg ts hpulse, assemblePulse_of_pulseLabel hdropped]
    simp [stateAfter, decoderAfter, debouncerAfter, pwmAfter, eventAfter, hfall]
  · obtain ⟨-, hidle⟩ : e = .noSignal ∧ s.decoder.phase = .idle := by
      simpa only [htimeout, false_and, or_false] using (tickLabel_eq_some_iff _ _ _).1 htick
    simp [stateAfter, decoderAfter, debouncerAfter, pwmAfter, eventAfter, watchdogTick_of_idle s.cfg hidle]
  · obtain ⟨-, -, hidle⟩ : e = .noSignal ∧ _ ∧ s.decoder.phase = .idle := by
      simpa only [hmismatch, false_and, false_or] using (readLabel_eq_some_iff _ _ _).1 hreadLabel
    obtain ⟨-, -, hready, -⟩ := hidleInv hidle
    have hnoKey : readKey s.cfg s.decoder = (0, s.decoder) := readKey_of_not_ready s.cfg hready
    obtain rfl | rfl := hread
    · simp [stateAfter_keyrd hnoKey]
    · rw [stateAfter_poll hnoKey]
      exact ⟨rfl, fun _ => rfl, rfl, fun hpoll => absurd rfl hpoll, fun _ => debounce_lastKey s.cfg 0 s.debouncer,
        fun _ => rfl, debounce_zero_event s.cfg s.debouncer⟩

/-! ChecksumOrAddressMismatch. -/

/-- The condition of 60_exceptions.md R254. -/
theorem errorLabel_eq_mismatch_iff (i : Instr) (s : State) :
    errorLabel i s = some .checksumOrAddressMismatch ↔
      (i = .keyrd ∨ i = .poll) ∧ s.decoder.frameReady = true ∧
        ¬ValidFrameFor s.cfg.deviceId s.decoder.accumulator := by
  constructor
  · intro h
    obtain ⟨ts, -, -, hlabel⟩ | ⟨-, hlabel⟩ | ⟨hi, hlabel⟩ := errorLabel_eq_some_cases h
    · simpa using pulseLabel_cases hlabel
    · simp [tickLabel_eq_some_iff] at hlabel
    · exact ⟨hi, by simpa using (readLabel_eq_some_iff _ _ _).1 hlabel⟩
  · rintro ⟨rfl | rfl, hinvalid⟩ <;> exact (readLabel_eq_some_iff _ _ _).2 (.inl ⟨rfl, hinvalid⟩)

/-- Settles O52. -/
theorem mismatchIsAnsweredAsNoKey : Obligations.MismatchIsAnsweredAsNoKey := by
  intro i s
  rw [errorLabel_eq_mismatch_iff]
  refine ⟨Iff.rfl, fun ⟨hread, hready, hinvalid⟩ => ⟨_, exec_eq_stateAfter i s, ?_⟩⟩
  have hdrop : readKey s.cfg s.decoder = (0, clearedDecoder s.decoder.pulseInProgress) := by
    rw [readKey_of_invalid hready hinvalid, decoderReset_eq_clearedDecoder]
  obtain rfl | rfl := hread
  · simp [stateAfter_keyrd hdrop]
  · simp [stateAfter_poll hdrop, debounce_lastKey]

end Sys2Proof.Machine
end

section
/-! Reset (70_reset_and_hazards.md R280, R282): the registers and outputs it leaves, and what first lights a pin. -/

namespace Sys2Proof.Machine

/-! Outputs. -/

theorem pin_eq_true_iff (s : State) (n : Nat) : pin s n = true ↔ activeAt s.pwm n = false := by simp [pin]

theorem pin_eq_false_iff (s : State) (n : Nat) : pin s n = false ↔ activeAt s.pwm n = true := by simp [pin]

theorem activeAt_reset (channels n : Nat) : activeAt (PwmState.reset channels) n = false := by
  simp only [activeAt, PwmState.reset, List.getD_eq_getElem?_getD, List.getElem?_replicate]
  split <;> rfl

/-- A tick sets no output past the channels. -/
theorem activeAt_pwmTick_of_le {c : Config} {n : Nat} (h : c.nChannels ≤ n) (p : PwmState) :
    activeAt (pwmTick c p) n = false := by
  simp [activeAt, h]

/-- An output that is on after an operation was on before it, unless a tick turned it on (44_pwm_engine.md R216). -/
theorem activeAt_pwmAfter_cases {i : Instr} {s : State} {n : Nat} (h : activeAt (pwmAfter i s) n = true) :
    activeAt s.pwm n = true ∨
      (i = .ptick ∧ enabledAt s.pwm n = true ∧ (pwmAfter i s).counter.toNat < s.pwm.dutyLevel.toNat) := by
  cases i with
  | ptick =>
    obtain hn | hpast := lt_or_ge n s.cfg.nChannels
    · exact .inr ⟨rfl, (activeAt_pwmTick_iff s.cfg s.pwm hn).1 h⟩
    · exact absurd ((activeAt_pwmTick_of_le hpast s.pwm).symm.trans h) Bool.false_ne_true
  | reset => exact absurd ((activeAt_reset s.cfg.nChannels n).symm.trans h) Bool.false_ne_true
  | seten ch en => exact .inl (by rwa [pwmAfter, activeAt, setChannel_active] at h)
  | rise _ | fall _ | wtick | keyrd | dbstep _ | poll | setduty _ => exact .inl h

theorem pins_boot (c : Config) (ops : List OpPort) : pins (State.boot c ops) = List.replicate c.nChannels true := by
  refine List.eq_replicate_iff.2 ⟨by simp [pins], fun level hlevel => ?_⟩
  obtain ⟨n, -, rfl⟩ := List.mem_map.1 hlevel
  exact (pin_eq_true_iff _ n).2 (activeAt_reset c.nChannels n)

/-- Settles O14: a pin that falls is an output that was off and is on, which only a tick does. -/
theorem outputsAtResetAndUntilATickLights : Obligations.OutputsAtResetAndUntilATickLights := by
  intro c ops
  refine ⟨pins_boot c ops, rfl, rfl, rfl, rfl, fun i s t n hexec hhigh hlow => ?_⟩
  obtain ⟨-, -, -, -, hpwm⟩ := exec_next_registers hexec
  rw [pin_eq_true_iff] at hhigh
  rw [pin_eq_false_iff, hpwm] at hlow
  rw [hpwm]
  obtain hwasOn | hlit := activeAt_pwmAfter_cases hlow
  · exact absurd (hhigh.symm.trans hwasOn) Bool.false_ne_true
  · exact hlit

/-! Registers. -/

/-- The three ways to a reset state leave each engine at its reset values, with the channels the parameters give. -/
theorem engines_at_reset {t : State}
    (h : t = State.reset ∨ (∃ c ops, t = State.boot c ops) ∨ ∃ s, exec .reset s = .next t) :
    t.decoder = DecoderState.reset ∧ t.debouncer = DebounceState.reset ∧ t.pwm = PwmState.reset t.cfg.nChannels := by
  obtain rfl | ⟨c, ops, rfl⟩ | ⟨s, hexec⟩ := h
  · exact ⟨rfl, rfl, rfl⟩
  · exact ⟨rfl, rfl, rfl⟩
  · obtain ⟨hcfg, -, hdecoder, hdebouncer, hpwm⟩ := exec_next_registers hexec
    rw [hcfg]
    exact ⟨hdecoder, hdebouncer, hpwm⟩

theorem reset_flags {channels i : Nat} (h : i < channels) :
    (PwmState.reset channels).enabled[i]? = some false ∧ (PwmState.reset channels).active[i]? = some false := by
  simp [PwmState.reset, h]

/-- Settles O12. -/
theorem resetLeavesEveryRegisterAtItsResetValue : Obligations.ResetLeavesEveryRegisterAtItsResetValue := by
  intro t hreset
  obtain ⟨hdecoder, hdebouncer, hpwm⟩ := engines_at_reset hreset
  rw [hdecoder, hdebouncer, hpwm]
  exact ⟨rfl, rfl, rfl, rfl, rfl, rfl, rfl, rfl, rfl, rfl, rfl, rfl, fun _ hi => reset_flags hi⟩

end Sys2Proof.Machine
end
